-- ==== Sys2Proof/Word.lean ====
section
/-! DEFINITION. Bytes, two-byte words, round numbers, saturating counts, and the two containers the tables and records are held
in: `Table` (a fixed number of like things) and `PerBranch` (one thing for each branch). -/

namespace Sys2Proof

/-- One byte of a frame or of a table entry (R1, R15). -/
abbrev Byte := BitVec 8

/-- A round number: the round counter wraps from 4,294,967,295 to 0 (R18). -/
abbrev Round := BitVec 32

/-- A set of the zones 0–31, zone n in bit n (R15, R79). -/
abbrev ZoneSet := BitVec 32

/-- A byte as a receiver hears it: its value, and whether it came with its stop bit (R3, R35). -/
structure RxByte where
  value : Byte
  stop : Bool
  deriving DecidableEq, Repr

/-- The two branch lines (R16: code 0 is Branch A, code 1 Branch B). -/
inductive Branch where
  | branchA
  | branchB
  deriving DecidableEq, Repr

/-- A count that rises by 1 and stays at its limit ("saturating at"). -/
def satInc (limit n : Nat) : Nat := min limit (n + 1)

/-- The division of the introduction's "ceil". -/
def ceilDiv (n d : Nat) : Nat := (n + (d - 1)) / d

/-- The high byte of a 16-bit value, which is sent first (R1). -/
def hiByte (w : BitVec 16) : Byte := w.extractLsb' 8 8

/-- The low byte of a 16-bit value, which is sent second (R1). -/
def loByte (w : BitVec 16) : Byte := w.extractLsb' 0 8

/-- The 16-bit value two bytes carry, high byte first (R1). -/
def word16 (hi lo : Byte) : BitVec 16 := hi ++ lo

/-- The two bytes of an unsigned value 0–65,535, high byte first (R1). -/
def bytes16 (n : Nat) : List Byte := [hiByte (BitVec.ofNat 16 n), loByte (BitVec.ofNat 16 n)]

/-- The two bytes of a signed value, two's complement, high byte first (R1). -/
def bytesSigned (v : Int) : List Byte := [hiByte (BitVec.ofInt 16 v), loByte (BitVec.ofInt 16 v)]

/-- One byte holding a number 0–255. -/
def byteOf (n : Nat) : Byte := BitVec.ofNat 8 n

/-- A number as an index below `k`, where it is one. -/
def toFin? (k n : Nat) : Option (Fin k) := if h : n < k then some ⟨n, h⟩ else none

/-- Exactly `n` cells of one kind, numbered from 0. -/
structure Table (α : Type) (n : Nat) where
  cells : List α
  size : cells.length = n
  deriving DecidableEq, Repr

/-- Cell `i`. -/
def Table.get {α : Type} {n : Nat} (t : Table α n) (i : Fin n) : α :=
  t.cells.get ⟨i.val, by rw [t.size]; exact i.isLt⟩

/-- The table with cell `i` replaced. -/
def Table.set {α : Type} {n : Nat} (t : Table α n) (i : Fin n) (x : α) : Table α n :=
  ⟨t.cells.set i.val x, by rw [List.length_set]; exact t.size⟩

/-- The table with cell `i` changed by `f`. -/
def Table.modify {α : Type} {n : Nat} (t : Table α n) (i : Fin n) (f : α → α) : Table α n :=
  t.set i (f (t.get i))

/-- Every cell the same. -/
def Table.fill {α : Type} (n : Nat) (x : α) : Table α n := ⟨List.replicate n x, List.length_replicate⟩

/-- Every cell changed by `f`. -/
def Table.map {α β : Type} {n : Nat} (f : α → β) (t : Table α n) : Table β n :=
  ⟨t.cells.map f, by rw [List.length_map]; exact t.size⟩

/-- The numbers 0 to n − 1 in ascending order. -/
def indices (n : Nat) : List (Fin n) := List.finRange n

/-- The table whose cell `i` is `f i`. -/
def Table.build {α : Type} (n : Nat) (f : Fin n → α) : Table α n :=
  ⟨(indices n).map f, by rw [List.length_map]; exact List.length_finRange⟩

/-- One value for each branch. -/
structure PerBranch (α : Type) where
  forA : α
  forB : α
  deriving DecidableEq, Repr

/-- The value of branch `b`. -/
def PerBranch.get {α : Type} (p : PerBranch α) : Branch → α
  | .branchA => p.forA
  | .branchB => p.forB

/-- The pair with branch `b`'s value replaced. -/
def PerBranch.set {α : Type} (p : PerBranch α) (b : Branch) (x : α) : PerBranch α :=
  match b with
  | .branchA => { p with forA := x }
  | .branchB => { p with forB := x }

/-- The branch's code (R16). -/
def Branch.code : Branch → Nat
  | .branchA => 0
  | .branchB => 1

end Sys2Proof
end

