-- ==== Sys2Proof/Syntax.lean ====
section
/-! DEFINITION. The commands: one constructor for each row of spec/opcode_table.json, in the table's order. A command's operands are
what reaches the part from outside with that step: the bytes heard on a line, the values its sensors read, the branch and slot whose
time has come, the cause of a start-up. What the part itself holds is no operand: the rows of the Management Agent (READ to RESTART)
act on the request the agent holds (`Machine.Agent.request`), whose source, tag, code, table id, first index, count and data came in
with a trunk frame's bytes (R12, R172; notes/assumptions/5.md). -/

namespace Sys2Proof

/-- What the part's own sensing reads at a round start, before R64 holds it within range: the two branch currents in 10 mA, the
supply voltage in 0.1 V, the part temperature in °C. -/
structure Samples where
  currentA : Nat
  currentB : Nat
  supply : Nat
  temperature : Int
  deriving DecidableEq, Repr

/-- The cause a start-up carries in STARTED (R184: 0 power-up, 1 reset line, 2 RESTART). -/
inductive StartCause where
  | powerUp
  | resetLine
  | restart
  deriving DecidableEq, Repr

/-- The commands of the block. -/
inductive Instr where
  /-- TRUNK_GOOD_FRAME: the trunk receiver takes these bytes, the last completing a good frame (R3, R40, R187). -/
  | trunkGoodFrame (bytes : List RxByte)
  /-- TRUNK_FAULT: the trunk receiver takes these bytes and finds a start, over-length or check fault (R3, R40). -/
  | trunkFault (bytes : List RxByte)
  /-- TRUNK_BYTE_TIMEOUT: the trunk receiver takes these bytes, then 250 ms pass without one (R3). -/
  | trunkByteTimeout (bytes : List RxByte)
  /-- FR_TAKE_TRUNK_FRAME: the Frame Router takes the oldest frame of the receive FIFO (R41–R52). -/
  | frTakeTrunkFrame
  /-- BAD_REQUEST_CODE: the agent answers a request whose code is 0 or above 19 (R173). -/
  | badRequestCode
  /-- READ (R174). -/
  | read
  /-- WRITE: the agent answers a WRITE that fails a shared check (R173, R175). -/
  | write
  /-- WRITE_ROUTE (R46). -/
  | writeRoute
  /-- WRITE_POLL: POLL-A or POLL-B (R30). -/
  | writePoll
  /-- WRITE_CHANNEL (R59). -/
  | writeChannel
  /-- WRITE_DRIVE_BIND (R77). -/
  | writeDriveBind
  /-- WRITE_DRIVE_SHAPE (R78). -/
  | writeDriveShape
  /-- WRITE_DRIVE_LIMIT (R79). -/
  | writeDriveLimit
  /-- WRITE_CURVE (R81). -/
  | writeCurve
  /-- WRITE_CUE (R121). -/
  | writeCue
  /-- WRITE_ZONE (R136, R147). -/
  | writeZone
  /-- WRITE_ROTATION (R153). -/
  | writeRotation
  /-- WRITE_MOWER (R151). -/
  | writeMower
  /-- WRITE_SUPPLY (R108). -/
  | writeSupply
  /-- WRITE_GLOBAL (R137, R154, R176). -/
  | writeGlobal
  /-- SET_MODE (R83). -/
  | setMode
  /-- SHOW_START (R122). -/
  | showStart
  /-- SHOW_STOP (R123). -/
  | showStop
  /-- CLEAR_LATCHED (R72). -/
  | clearLatched
  /-- RESET_TRIP (R93). -/
  | resetTrip
  /-- TRIP_DRIVE (R93). -/
  | tripDrive
  /-- RESTORE_BRANCH (R104). -/
  | restoreBranch
  /-- BRANCH_OFF (R105). -/
  | branchOff
  /-- HOLD (R169). -/
  | hold
  /-- RECALL (R169). -/
  | recall
  /-- RESUME (R169). -/
  | resume
  /-- ZONE_VETO (R143). -/
  | zoneVeto
  /-- CLEAR_MOWER (R170). -/
  | clearMower
  /-- STORE (R180). -/
  | store
  /-- STORE_COMMIT_COMPLETE: the eighth part of the commit reads back correctly (R180). -/
  | storeCommitComplete
  /-- STORE_COMMIT_FAIL: the part being written reads back wrong (R180). -/
  | storeCommitFail
  /-- IDENTIFY (R182). -/
  | identify
  /-- STATUS (R182). -/
  | status
  /-- RESTART (R183). -/
  | restart
  /-- TRUNK_TX_START: the idle trunk transmitter starts the oldest upstream frame (R45). -/
  | trunkTxStart
  /-- TRUNK_TX_DONE: the last check byte of the frame being sent has gone (R45). -/
  | trunkTxDone
  /-- ROUND_START: with the values sensed, and whether the store part written at this round start, if one is, reads back as it was
  written (R18, R64, R180). -/
  | roundStart (samples : Samples) (readsBack : Bool)
  /-- BRANCH_TRIP: the branch's current sample of a round start is the fourth in a row with HIGH-ALARM live (R102, R103). -/
  | branchTrip (branch : Branch) (sample : Nat)
  /-- AUTO_ON: the round start that reaches the branch's start-up cool-down end (R106). -/
  | autoOn (branch : Branch)
  /-- CHANNEL_STALE: the round start that brings a bound channel to its stale limit (R65). -/
  | channelStale (channel : Fin 12)
  /-- REFRESH_DUE: the round start at which a drive's refresh falls due (R97). -/
  | refreshDue (drive : Fin 24)
  /-- RETRY_TIMER_EXPIRY: the round start that brings a mower's retry timer to 0 (R159). -/
  | retryTimerExpiry (mower : Fin 4)
  /-- STINT_EXPIRY: the round start that brings a mower's stint to 0 (R163). -/
  | stintExpiry (mower : Fin 4)
  /-- DRY_OFF_EXPIRY: the round start that brings the dry-off to 0 (R140). -/
  | dryOffExpiry
  /-- TRANSIT_HOLD_EXPIRY: the round start that brings a zone's transit hold to 0 (R150). -/
  | transitHoldExpiry (zone : Fin 32)
  /-- ISLAND_BEGUN: the round start that brings the silence timer to 0 (R185, R186). -/
  | islandBegun
  /-- GENERAL_SLOT: a general slot starts on a branch (R24). -/
  | generalSlot (branch : Branch) (slot : Fin 40)
  /-- POLL_SLOT: poll slot 40 + 2 × pair starts on a branch (R32). -/
  | pollSlot (branch : Branch) (pair : Fin 5)
  /-- CUE_DRAW: slot 48 starts, and the next round is drawn (R124). -/
  | cueDraw
  /-- CUE_RESOLVE: a general slot is resolved on a branch, two slots before it (R125, R126). -/
  | cueResolve (branch : Branch) (slot : Fin 40)
  /-- ECHO_JUDGED: the frame being sent on a branch ends, with the bytes that came back (R35, R36). -/
  | echoJudged (branch : Branch) (echo : List RxByte)
  /-- ANSWER_SLOT_JUDGED: the answer slot of a branch's exchange, with the bytes heard in it (R33). -/
  | answerSlotJudged (branch : Branch) (heard : List RxByte)
  /-- UNSOLICITED_FRAME: the bytes heard on a branch in a slot (R37). -/
  | unsolicitedFrame (branch : Branch) (slot : Fin 50) (heard : List RxByte)
  /-- RESET_LINE_ASSERT (R188). -/
  | resetLineAssert
  /-- START_UP: with its cause, and the values sensed at the start of round 0 (R64, R188). -/
  | startUp (cause : StartCause) (samples : Samples)
  /-- POWER_LOSS (R188). -/
  | powerLoss
  deriving DecidableEq, Repr

end Sys2Proof
end

