-- ==== Sys2Proof/Decode.lean ====
section
/-! DEFINITION. The commands that words spell. The part takes commands from outside and spec/opcode_table.json gives no row of its
table any bits, so no word spells a command (notes/assumptions/2.md). -/

namespace Sys2Proof

/-- The command that a word of `nbits` bits spells by the table's bits: none, since no row has any. -/
def decodeTableWord (_nbits _w : Nat) : Option Instr := none

end Sys2Proof
end

