-- ==== Sys2Proof/Config.lean ====
section
/-! DEFINITION. The fixed capacities, limits and addresses of the part (R1, R4, R13, R18, R20, R41, R43). The manual leaves no
result of a step undefined, so there is no free value here: notes/assumptions/3.md says what was looked for. -/

namespace Sys2Proof.Config

/-- The start mark of every frame (R1). -/
def startMark : Byte := 0xC3#8

/-- The longest payload (R1). -/
def maxPayload : Nat := 24

/-- All-call (R4). -/
def allCall : Byte := 0#8

/-- The head unit's address (R4). -/
def headUnit : Byte := 126#8

/-- The part's own address (R4). -/
def self : Byte := 127#8

/-- Places of the trunk receive FIFO (R41). -/
def fifoPlaces : Nat := 8

/-- Places of the upstream queue (R43). -/
def upstreamPlaces : Nat := 32

/-- The most REPORT and NOTICE frames the upstream queue holds together (R43). -/
def reportPlaces : Nat := 28

/-- Entries of a branch's send queue (R20). -/
def sendQueuePlaces : Nat := 16

/-- Entries of a branch's poll-now list (R31). -/
def pollNowPlaces : Nat := 4

/-- The limit of the 16-bit saturating counts. -/
def count16 : Nat := 65535

/-- The limit of the one-byte saturating counts. -/
def count8 : Nat := 255

/-- Rounds a branch cools down after a trip, and after start-up (R101, R103). -/
def coolDown : Nat := 40

/-- Rounds between a mower's retries (R157, R160, R161, R162). -/
def retryRounds : Nat := 40

/-- The keep-alive of upstream forwarding, in rounds (R55). -/
def keepAlive : Nat := 240

/-- Consecutive misses that make a node ABSENT (R34). -/
def missesToAbsent : Nat := 3

/-- Consecutive HIGH-ALARM samples that trip a branch (R102). -/
def samplesToTrip : Nat := 4

/-- Rounds of one stint minute (R163). -/
def roundsPerMinute : Nat := 240

/-- The largest amount by which a stored round is overdue (R18). -/
def maxOverdue : Nat := 2147483647

/-- Data bytes of one MANAGE request or reply (R12, R13). -/
def dataBytes : Nat := 20

/-- Vendor and part codes of IDENTIFY (R13). -/
def vendorCode : Nat := 0x7A21
def partCode : Nat := 0x0340

/-- The eleven capacities of IDENTIFY, in the order of R13. -/
def capacities : List Nat := [16, 32, 16, 24, 8, 32, 64, 4, 32, 64, 4]

/-- The most inter-block events one command settles before it leaves the rest on the agenda (notes/assumptions/4.md). -/
def cascadeFuel : Nat := 65536

end Sys2Proof.Config
end

