-- ==== Sys2Proof/Machine/State.lean ====
section
/-! DEFINITION. The state of the part: the read-write tables (chapter 1, R15), the clock (R18), the Trunk Port, the Management
Agent with its store, and the eleven blocks' live state, all as plain data; what each field is after start-up; and the reasons a
step could stop. -/

namespace Sys2Proof.Machine

/-! ## Frames and receivers -/

/-- A Corbafield line frame less its start mark, length and check, which its other fields give (R1). -/
structure Frame where
  dest : Byte
  source : Byte
  kind : BitVec 4
  tag : BitVec 4
  payload : List Byte
  deriving DecidableEq, Repr

/-- What a receiver is doing (R3). HUNTING, having discarded bytes since its last start mark or silence or not; or ASSEMBLING, with
the bytes received since the start mark, in order. -/
inductive Receiver where
  | hunting (discarding : Bool)
  | assembling (got : List RxByte)
  deriving DecidableEq, Repr

/-! ## Configuration records: the read-write tables 1–14 (R15) -/

/-- The branches of a route entry's target set (R16: none, A, B, both). -/
inductive TargetSet where
  | none
  | onlyA
  | onlyB
  | both
  deriving DecidableEq, Repr

/-- A ROUTE entry (R46). -/
structure RouteEntry where
  enabled : Bool
  matchValue : Byte
  mask : Byte
  target : TargetSet
  reportUp : Bool
  intercept : Bool
  deriving DecidableEq, Repr

/-- The configuration fields of a poll-table entry (R30). -/
structure PollEntry where
  node : Byte
  interval : Nat
  deriving DecidableEq, Repr

/-- The configuration fields of a channel (R58). -/
structure ChannelConfig where
  enabled : Bool
  branch : Branch
  node : Byte
  valueIndex : Nat
  staleLimit : Nat
  highAlarm : Int
  highWarn : Int
  lowWarn : Int
  lowAlarm : Int
  hysteresis : Nat
  deadband : Nat
  deriving DecidableEq, Repr

/-- What a drive's output drives (R16, R76). -/
inductive DriveKind where
  | pump
  | jet
  | lamp
  deriving DecidableEq, Repr

/-- A drive's binding (R76); a destination of 0 is unbound. -/
structure DriveBind where
  branch : Branch
  dest : Byte
  output : Nat
  kind : DriveKind
  deriving DecidableEq, Repr

/-- A drive's mode (R78). -/
inductive DriveMode where
  | off
  | auto
  | manual
  | inShow
  deriving DecidableEq, Repr

/-- The flag of the trip channel that trips a drive (R78). -/
inductive TripSense where
  | lowAlarm
  | highAlarm
  deriving DecidableEq, Repr

/-- A drive's shape (R78). -/
structure DriveShape where
  mode : DriveMode
  indexChannel : Fin 16
  base : Int
  step : Nat
  curve : Fin 8
  boostChannel : Option (Fin 16)
  boostAmount : Nat
  holdChannel : Option (Fin 16)
  holdLevel : Nat
  tripChannel : Option (Fin 16)
  tripSense : TripSense
  deriving DecidableEq, Repr

/-- A drive's limits (R79). -/
structure DriveLimit where
  maxLevel : Nat
  floorLevel : Nat
  fallbackLevel : Nat
  rated : Nat
  deadband : Nat
  refresh : Nat
  spraySet : ZoneSet
  sprayCap : Nat
  transitLevel : Nat
  deriving DecidableEq, Repr

/-- What a cue does (R120). -/
inductive CueAction where
  | level (drive : Fin 24) (level : Nat)
  | frame (branch : Branch) (dest : Byte) (payload : List Byte)
  deriving DecidableEq, Repr

/-- The configuration fields of a cue (R120). -/
structure CueConfig where
  enabled : Bool
  inShow : Fin 4
  slot : Fin 40
  period : Nat
  phase : Nat
  priority : Nat
  tolerance : Nat
  action : CueAction
  deriving DecidableEq, Repr

/-- What a zone is (R136). -/
inductive ZoneKind where
  | lawn
  | path
  | water
  | bed
  deriving DecidableEq, Repr

/-- The configuration fields of a zone (R136). -/
structure ZoneConfig where
  kind : ZoneKind
  enabled : Bool
  wetChannel : Option (Fin 16)
  stint : Nat
  lamp : Option (Fin 24)
  transitHold : Nat
  deriving DecidableEq, Repr

/-- The configuration fields of a mower record (R151). -/
structure MowerConfig where
  enabled : Bool
  branch : Branch
  node : Byte
  dock : Byte
  chargeCurrent : Nat
  dispatchBattery : Nat
  returnBattery : Nat
  deriving DecidableEq, Repr

/-- A SUPPLY entry (R108). -/
structure SupplyConfig where
  budget : Nat
  autoOn : Bool
  deriving DecidableEq, Repr

/-- The GLOBAL entry (R137, R176). -/
structure GlobalConfig where
  rainChannel : Option (Fin 16)
  ambientChannel : Option (Fin 16)
  windChannel : Option (Fin 16)
  dryOff : Nat
  silenceTimeout : Nat
  deriving DecidableEq, Repr

/-- The read-write tables, ids 1–14 (R15). -/
structure Tables where
  routes : Table RouteEntry 16
  polls : PerBranch (Table PollEntry 32)
  channels : Table ChannelConfig 16
  binds : Table DriveBind 24
  shapes : Table DriveShape 24
  limits : Table DriveLimit 24
  curves : Table (Table Nat 32) 8
  cues : Table CueConfig 64
  zones : Table ZoneConfig 32
  rotation : Table (Fin 32) 64
  rotationLength : Nat
  mowers : Table MowerConfig 4
  supply : PerBranch SupplyConfig
  globals : GlobalConfig
  deriving DecidableEq, Repr

/-- The empty defaults of section 10.5. -/
def Tables.empty : Tables where
  routes := Table.fill 16 ⟨false, 0, 0, .none, false, false⟩
  polls := ⟨Table.fill 32 ⟨0, 1⟩, Table.fill 32 ⟨0, 1⟩⟩
  channels := Table.fill 16 ⟨false, .branchA, 0, 0, 240, 32767, 32767, -32768, -32768, 0, 0⟩
  binds := Table.fill 24 ⟨.branchA, 0, 0, .pump⟩
  shapes := Table.fill 24 ⟨.off, 0, 0, 1, 0, none, 0, none, 0, none, .lowAlarm⟩
  limits := Table.fill 24 ⟨0, 0, 0, 0, 0, 0, 0, 0, 0⟩
  curves := Table.fill 8 (Table.fill 32 0)
  cues := Table.fill 64 ⟨false, 0, 0, 1, 0, 1, 0, .level 0 0⟩
  zones := Table.fill 32 ⟨.lawn, false, none, 1, none, 0⟩
  rotation := Table.fill 64 0
  rotationLength := 1
  mowers := Table.fill 4 ⟨false, .branchA, 0, 0, 0, 0, 0⟩
  supply := ⟨⟨0, false⟩, ⟨0, false⟩⟩
  globals := ⟨none, none, none, 0, 120⟩

/-! ## The clock -/

/-- The round counter and the slot index both branches share (R18). -/
structure Clock where
  round : Round
  slot : Fin 50
  deriving DecidableEq, Repr

/-- A round number a record holds, with the mark that its overdue amount has reached its limit (R18: once reached it stays reached,
and the amount saturates). -/
structure StoredRound where
  round : Round
  saturated : Bool
  deriving DecidableEq, Repr

/-! ## Branch lines -/

/-- The Mower Dispatcher's three commands (R22). -/
inductive MowerCommand where
  | go
  | home
  | charge
  deriving DecidableEq, Repr

/-- Who placed a send-queue entry (R20). -/
inductive Origin where
  | trunk
  | mower (m : Fin 4) (command : MowerCommand)
  deriving DecidableEq, Repr

/-- A send-queue entry (R20). `urgent` is its class; `arrival` numbers the entries of a branch as they arrive and tells one entry
from another with the same frame; the queue's order is the arrival order but for R36. -/
structure QueueEntry where
  frame : Frame
  urgent : Bool
  origin : Origin
  arrival : Nat
  collided : Bool
  deriving DecidableEq, Repr

/-- A POLL of the poll-now list (R31), with the payload it came with, which R8 forwards as received (notes/assumptions/38.md). -/
structure PollNow where
  dest : Byte
  source : Byte
  tag : BitVec 4
  payload : List Byte
  deriving DecidableEq, Repr

/-- A node's presence (R34). -/
inductive Presence where
  | unknown
  | present
  | absent
  deriving DecidableEq, Repr

/-- The run fields of a poll-table entry: its next-due round and its presence record (R30, R34). -/
structure PollRun where
  nextDue : StoredRound
  presence : Presence
  misses : Nat
  garbles : Nat
  deriving DecidableEq, Repr

/-- Where an exchange came from: a send-queue entry by its arrival number and origin, the poll table, or the poll-now list. -/
inductive ExchangeOrigin where
  | entry (arrival : Nat) (origin : Origin)
  | pollTable
  | pollNow
  deriving DecidableEq, Repr

/-- The record of the exchange in flight (R28). -/
structure Exchange where
  dest : Byte
  tag : BitVec 4
  origin : ExchangeOrigin
  answerSlot : Fin 50
  deriving DecidableEq, Repr

/-- A resolved cue's fixed frame, or the drive whose grant its slot carries (R128, R129). -/
inductive CueSend where
  | drive (drive : Fin 24)
  | frame (frame : Frame)
  deriving DecidableEq, Repr

/-- The winner of a slot's resolution (R127), until its frame ends. `rewritten` is set when the cue's entry is written after the
resolution (R131). -/
structure Resolved where
  cue : Fin 64
  branch : Branch
  slot : Fin 40
  send : CueSend
  rewritten : Bool
  deriving DecidableEq, Repr

/-- What the frame being sent is (R36). -/
inductive SendSource where
  | entry (arrival : Nat)
  | drive (drive : Fin 24)
  | cue (winner : Resolved)
  | poll
  deriving DecidableEq, Repr

/-- The frame a branch is sending: for a drive update or a LEVEL cue, the level it carries, and whether the drive's binding has been
changed since the slot's start (R98). -/
structure Sending where
  frame : Frame
  slot : Fin 50
  source : SendSource
  level : Nat
  rebound : Bool
  deriving DecidableEq, Repr

/-- One Branch Line Controller (chapter 2). The last three fields say which slot of the round the part last transmitted in, judged
an answer in, and keeps idle after a collided COMMAND-ACK (R28, R37). -/
structure Line where
  queue : List QueueEntry
  nextArrival : Nat
  queueFullSeen : Bool
  polls : Table PollRun 32
  pollNow : List PollNow
  tag : BitVec 4
  exchange : Option Exchange
  sending : Option Sending
  lastServed : Fin 24
  collisions : Nat
  unsolicited : Nat
  sentIn : Option (Fin 50)
  answeredIn : Option (Fin 50)
  idleIn : Option (Fin 50)
  deriving DecidableEq, Repr

/-! ## Routing -/

/-- The forwarding record of a node address (R54). -/
structure ForwardRecord where
  status : Option Byte
  round : Option StoredRound
  deriving DecidableEq, Repr

/-- The mark an answer reaches the Frame Router with (R53). -/
inductive AnswerMark where
  | ordinary
  | trunkPoll
  | forwardedCommand
  deriving DecidableEq, Repr

/-! ## Channels -/

/-- Whether a channel's value is current (R58). -/
inductive ChannelState where
  | empty
  | fresh
  | stale
  deriving DecidableEq, Repr

/-- A set of the four threshold flags (R16). -/
structure Flags where
  lowAlarm : Bool
  lowWarn : Bool
  highWarn : Bool
  highAlarm : Bool
  deriving DecidableEq, Repr

/-- The state fields of a channel (R58); `lastForwarded` is kept by the Frame Router (R54). -/
structure Channel where
  value : Int
  state : ChannelState
  live : Flags
  latched : Flags
  rounds : Nat
  lastForwarded : Option Int
  deriving DecidableEq, Repr

/-- Why a channel report is issued (R73). -/
inductive ReportCause where
  | newValue
  | stale
  | emptied
  | flags
  deriving DecidableEq, Repr

/-- A channel report (R73). -/
structure ChannelReport where
  channel : Fin 16
  value : Int
  state : ChannelState
  live : Flags
  cause : ReportCause
  deriving DecidableEq, Repr

/-- The blocks a channel report is handed to (R73). -/
inductive Consumer where
  | driveUnit
  | zoneUnit
  | mowerDispatcher
  | supplyUnit
  deriving DecidableEq, Repr

/-! ## Drives and loads -/

/-- The state of a drive (R80). `handDue` says that the next recomputation hands over whether or not the wanted level changed: the
row has joined a branch, the branch has become ON, or the rated current has changed (R94, R111). -/
structure Drive where
  manual : Nat
  showLevel : Nat
  base : Nat
  wanted : Nat
  granted : Nat
  lastSent : Nat
  sentKnown : Bool
  roundsSinceSend : Nat
  toldOverCap : Bool
  toldSpray : ZoneSet
  handDue : Bool
  overMax : Bool
  tripped : Bool
  shed : Bool
  limited : Bool
  sprayCapped : Bool
  transit : Bool
  pending : Bool
  unpowered : Bool
  deriving DecidableEq, Repr

/-- A load's class, lowest standing first (R16). -/
inductive LoadClass where
  | ambient
  | charge
  | showLoad
  | water
  | safety
  deriving DecidableEq, Repr

/-- A row of a load table (R110). A charge row has wanted and granted 1 for on and 0 for off. The branch of a row, its rated current
and its floor are the drive's or the mower record's. -/
structure LoadRow where
  cls : LoadClass
  wanted : Nat
  granted : Nat
  current : Nat
  shed : Bool
  limited : Bool
  deriving DecidableEq, Repr

/-- A row's name: a drive's row or a mower's charge row (R15: LOAD-STATE entries 0–23 and 24–27). -/
inductive LoadId where
  | drive (d : Fin 24)
  | charge (m : Fin 4)
  deriving DecidableEq, Repr

/-- The state of a branch supply (R101). -/
inductive SupplyState where
  | off
  | on
  | tripped
  deriving DecidableEq, Repr

/-- A branch's supply record (R101). -/
structure Supply where
  state : SupplyState
  coolEnd : StoredRound
  armed : Bool
  tripCount : Nat
  deriving DecidableEq, Repr

/-- The Supply and Load Unit (chapter 6). -/
structure SupplyUnit where
  supply : PerBranch Supply
  supplyLow : Bool
  drives : Table LoadRow 24
  charges : Table LoadRow 4
  deriving DecidableEq, Repr

/-- What the unit pushes about a charge row (R118). -/
inductive ChargePush where
  | suspended
  | granted
  | released
  deriving DecidableEq, Repr

/-! ## Cues -/

/-- A cue's run state (R120); `drawn` says that an occurrence is drawn and not yet resolved (R124). -/
structure CueRun where
  countdown : Nat
  repeatPending : Bool
  postponed : Nat
  clashes : Nat
  drawn : Bool
  deriving DecidableEq, Repr

/-- The Cue Scheduler (chapter 7). `running` says which shows are RUNNING; `resolved` holds the winners whose slots have not yet
started. -/
structure CueUnit where
  runs : Table CueRun 64
  running : Table Bool 4
  resolved : List Resolved
  deriving DecidableEq, Repr

/-! ## Zones -/

/-- The five reasons of a veto set (R16, R138). -/
inductive Veto where
  | rain
  | wet
  | spray
  | noData
  | manual
  deriving DecidableEq, Repr

/-- A path's light state (R149). -/
inductive Light where
  | idle
  | lit
  | holding
  deriving DecidableEq, Repr

/-- The state of a zone (R138). NO-DATA is in the veto set while either of its two marks is set (R141). Occupant n is bit n. -/
structure Zone where
  rain : Bool
  wet : Bool
  spray : Bool
  manual : Bool
  rainNoData : Bool
  wetNoData : Bool
  occupants : BitVec 4
  transitCount : Nat
  holdRemaining : Nat
  light : Light
  deriving DecidableEq, Repr

/-- The rain state (R139). -/
inductive RainState where
  | dry
  | raining
  | drying
  deriving DecidableEq, Repr

/-- A drive's over-cap record (R138). -/
structure OverCap where
  isOver : Bool
  spray : ZoneSet
  deriving DecidableEq, Repr

/-- The Zone Unit (chapter 8). -/
structure ZoneUnit where
  zones : Table Zone 32
  rain : RainState
  dryOffRemaining : Nat
  windy : Bool
  dark : Bool
  overCaps : Table OverCap 24
  transitZones : Table (Option (Fin 32)) 4
  deriving DecidableEq, Repr

/-! ## Mowers -/

/-- A mower's state (R152), in the order of its codes (R16). -/
inductive MowerState where
  | absent
  | docked
  | charging
  | assigned
  | outbound
  | mowing
  | inbound
  | halted
  | lost
  deriving DecidableEq, Repr

/-- The mode a mower answers with (R11). -/
inductive MowerMode where
  | docked
  | driving
  | cutting
  | fault
  deriving DecidableEq, Repr

/-- The reason a return-on-acceptance mark holds (R162). -/
inductive ReturnReason where
  | veto (v : Veto)
  | recall
  deriving DecidableEq, Repr

/-- Which entry of which branch's send queue a mower command is (R156). -/
structure CommandId where
  command : MowerCommand
  branch : Branch
  arrival : Nat
  deriving DecidableEq, Repr

/-- The held mark of a mower command (R156): its entry, the setting of a CHARGE (no for the others), and whether the record has been
disabled since it was queued, so that its outcome is discarded (R170). -/
structure HeldCommand where
  id : CommandId
  on : Bool
  former : Bool
  deriving DecidableEq, Repr

/-- A mower's run state and internal marks (R152). `returnReasons` holds the reason of each event that set return on acceptance;
`commands` are the commands held, in the order queued (R156). -/
structure Mower where
  state : MowerState
  assigned : Option (Fin 32)
  stint : Nat
  lastMode : MowerMode
  lastZone : Nat
  lastBattery : Nat
  retry : Nat
  chargeStanding : Bool
  homeOwed : Bool
  returnReasons : List ReturnReason
  stintSent : Nat
  commands : List HeldCommand
  deriving DecidableEq, Repr

/-- An outcome of a mower command (R29). -/
inductive CommandOutcome where
  | accepted
  | refused
  | noAnswer
  | notQueued
  | failed
  deriving DecidableEq, Repr

/-- The Mower Dispatcher (chapter 9). `held` is the gate; `daylight` and `island` are the records of R154. -/
structure MowerUnit where
  mowers : Table Mower 4
  pointer : Nat
  held : Bool
  daylight : Bool
  island : Bool
  deriving DecidableEq, Repr

/-! ## The upstream queue, and what blocks hand one another -/

/-- A frame of the upstream queue; `restart` marks the reply that leads to start-up (R183). -/
structure UpFrame where
  frame : Frame
  restart : Bool
  deriving DecidableEq, Repr

/-- The upstream queue (R43, R44). -/
structure Upstream where
  queue : List UpFrame
  claimed : Nat
  lost : Nat
  deriving DecidableEq, Repr

/-- What the Mower Dispatcher goes on with once the Zone Unit has answered RELEASED (R146): the mower is DOCKED by its own answer
(R155), DOCKED by a dispatch that came to nothing (R161, R162), reported where it stands (R148, R166), ABSENT by CLEAR-MOWER, or
ABSENT as its record is disabled (R170). -/
inductive AfterRelease where
  | docks
  | drops
  | reports
  | clears
  | disables
  deriving DecidableEq, Repr

/-- A request, report or push one block hands another, which that block takes as an event of its own. -/
inductive Task where
  /-- The Measurement Unit issues a channel report (R73). -/
  | report (r : ChannelReport)
  /-- One consumer takes a channel report (R74). -/
  | consume (k : Consumer) (r : ChannelReport)
  /-- A channel takes a value of an answer (R62). -/
  | newValue (c : Fin 16) (v : Int)
  /-- An internal channel takes its sample (R64). -/
  | sample (c : Fin 4) (v : Int)
  /-- A round start reaches a bound channel (R65). -/
  | ageChannel (c : Fin 12)
  /-- A channel goes STALE where it is FRESH, for its node or its branch (R66, R67). -/
  | goStale (c : Fin 16)
  /-- A branch leaving ON reaches the Measurement Unit (R67). -/
  | channelsOff (b : Branch)
  /-- A drive is recomputed, with the contents of the channel report that caused it (R82). -/
  | recompute (d : Fin 24) (seen : Option ChannelReport)
  /-- The Supply and Load Unit pushes a drive row's grant or marks (R118). -/
  | pushDrive (d : Fin 24)
  /-- The Cue Scheduler writes a show level (R84). -/
  | showWrite (d : Fin 24) (level : Nat)
  /-- A round start reaches a drive (R97). -/
  | ageDrive (d : Fin 24)
  /-- A branch leaving ON reaches the Drive Unit (R99). -/
  | drivesOff (b : Branch)
  /-- One drive of that branch is marked UNPOWERED and recomputed (R99). -/
  | unpower (d : Fin 24)
  /-- A branch becoming ON reaches the Drive Unit (R100). -/
  | drivesOn (b : Branch)
  /-- A round start reaches a branch's supply record (R106). -/
  | autoOn (b : Branch)
  /-- The Supply and Load Unit pushes a charge row to the Mower Dispatcher (R118). -/
  | pushCharge (m : Fin 4) (p : ChargePush)
  /-- The Drive Unit tells the Zone Unit a jet's over-cap state and spray set (R94). -/
  | overCap (d : Fin 24) (isOver : Bool) (spray : ZoneSet)
  /-- The Zone Unit sets or clears a drive's TRANSIT to match the paths naming it (R149). -/
  | lampSync (d : Fin 24)
  /-- A zone's transit count falls or rises by 1 (R148). -/
  | pathCount (z : Fin 32) (rises : Bool)
  /-- Dark has become yes, and a path is taken (R149). -/
  | darkPath (z : Fin 32)
  /-- A round start reaches the dry-off (R140). -/
  | dryOffRound
  /-- A round start reaches a zone's transit hold (R150). -/
  | holdRound (z : Fin 32)
  /-- A mower's state report to the Zone Unit (R148). -/
  | stateReport (m : Fin 4) (s : MowerState)
  /-- A mower's position report to the Zone Unit (R148). -/
  | position (m : Fin 4) (zone : Nat)
  /-- A veto arrival reported to the Mower Dispatcher (R144). -/
  | vetoArrival (z : Fin 32) (v : Veto) (m : Fin 4)
  /-- A dispatch attempt (R159). -/
  | attempt (m : Fin 4)
  /-- The answer ASSIGNED reaches the Mower Dispatcher (R160). -/
  | dispatch (m : Fin 4) (z : Fin 32)
  /-- The answer RELEASED reaches the Mower Dispatcher, which goes on (R146). -/
  | released (m : Fin 4) (next : AfterRelease)
  /-- The recall of one mower (R169). -/
  | recallOne (m : Fin 4)
  /-- A mower asks for charge (R157). -/
  | ask (m : Fin 4)
  /-- An outcome of a mower command (R29). -/
  | outcome (m : Fin 4) (k : CommandId) (o : CommandOutcome)
  /-- A usable mower answer (R155). -/
  | mowerAnswer (m : Fin 4) (mode : MowerMode) (zone battery : Nat)
  /-- A branch becoming ON reaches the Mower Dispatcher (R107). -/
  | mowersOn (b : Branch)
  /-- A round start reaches a mower's home retry (R165). -/
  | homeRound (m : Fin 4)
  /-- A round start reaches a mower's stint (R163). -/
  | stintRound (m : Fin 4)
  /-- A round start reaches a mower's retry timer (R159). -/
  | retryRound (m : Fin 4)
  /-- The result of an exchange has been handed on: its entry leaves the queue and its record is cleared (R29). -/
  | exchangeEnd (b : Branch)
  /-- A node has become ABSENT, and the Mower Dispatcher takes it (R168). -/
  | nodeLost (b : Branch) (node : Byte)
  /-- A node presence change (R34). -/
  | presence (b : Branch) (node : Byte) (p : Presence)
  /-- A node address is no longer polled (R30). -/
  | unpolled (b : Branch) (node : Byte)
  /-- A good answer reaches the Frame Router (R53). -/
  | answer (b : Branch) (mark : AnswerMark) (f : Frame)
  /-- The router decides whether an answer goes up (R55, R56). -/
  | forward (b : Branch) (mark : AnswerMark) (f : Frame)
  /-- A branch leaving ON reaches its Branch Line Controller (R38). -/
  | lineOff (b : Branch)
  deriving DecidableEq, Repr

/-- The live state of the blocks that hand one another events. `agenda` is what they have handed and not yet taken: it is empty
unless one command's events outran `Config.cascadeFuel` (notes/assumptions/4.md). -/
structure Blocks where
  up : Upstream
  lines : PerBranch Line
  forwards : Table ForwardRecord 112
  channels : Table Channel 16
  drives : Table Drive 24
  slu : SupplyUnit
  cues : CueUnit
  zones : ZoneUnit
  mowers : MowerUnit
  agenda : List Task
  deriving DecidableEq, Repr

/-! ## The Trunk Port and the Management Agent -/

/-- A good frame of the receive FIFO, with the island record as it stood when its last byte arrived (R13, R41). -/
structure FifoEntry where
  frame : Frame
  island : Bool
  deriving DecidableEq, Repr

/-- The Trunk Port but for its upstream queue (R40, R41, R45, R185): `timeoutInForce` is the silence timeout the timer was last loaded
with (R176, R184; notes/assumptions/22.md), and `transmitting` is the bytes of the frame being sent. -/
structure TrunkPort where
  receiver : Receiver
  fifo : List FifoEntry
  errors : Nat
  formats : Nat
  overflows : Nat
  silenceTimer : Nat
  timeoutInForce : Nat
  island : Bool
  islandRounds : Nat
  transmitting : Option (List Byte)
  deriving DecidableEq, Repr

/-- A MANAGE request: where it came from, its header and data (R12), and the island record as its last byte arrived (R13). -/
structure Request where
  source : Byte
  tag : BitVec 4
  code : Nat
  table : Nat
  first : Nat
  count : Nat
  data : List Byte
  island : Bool
  deriving DecidableEq, Repr

/-- A store commit IN-FLIGHT: the snapshot, how many of its eight parts are written, and where its reply goes (R180). -/
structure Commit where
  snapshot : Tables
  parts : Nat
  request : Request
  deriving DecidableEq, Repr

/-- The store image: the tables it holds, the CRC-16 after them, and the completion mark (R179). -/
structure Image where
  contents : Tables
  crc : BitVec 16
  mark : Bool
  deriving DecidableEq, Repr

/-- How far a RESTART has come (R183). -/
inductive RestartPhase where
  | none
  | replying
  | replied
  deriving DecidableEq, Repr

/-- The Management Agent (chapter 10). -/
structure Agent where
  request : Option Request
  commit : Option Commit
  image : Image
  imageValid : Bool
  restart : RestartPhase
  deriving DecidableEq, Repr

/-! ## The part -/

/-- Whether the part runs, is held by the asserted reset line, or is without supply, and then whether the line is asserted (R188). -/
inductive Life where
  | running
  | held
  | unpowered (lineAsserted : Bool)
  deriving DecidableEq, Repr

/-- The state of the CF340, and the commands waiting, first in first out. -/
structure State where
  life : Life
  tables : Tables
  clock : Clock
  trunk : TrunkPort
  agent : Agent
  blocks : Blocks
  pending : List Instr
  deriving DecidableEq, Repr

/-- The part has no fault that stops it: what the manual calls a fault (a start, over-length, check or format fault) is counted, and
the part goes on (R40, R42). No step raises a fault. -/
inductive Fault where
  deriving DecidableEq, Repr

/-- Why a step has no meaning. -/
inductive Refusal where
  /-- Raised by `exec` alone, for a command the model gives no meaning yet; safe. No command is in that case. -/
  | notModelled (mnemonic : String)
  deriving DecidableEq, Repr

/-! ## After start-up (R188) -/

/-- A round number held from start-up. -/
def StoredRound.atStartUp (n : Nat) : StoredRound := ⟨BitVec.ofNat 32 n, false⟩

/-- No flag set. -/
def Flags.clear : Flags := ⟨false, false, false, false⟩

/-- A Branch Line Controller after start-up (R20, R26, R28, R30, R31, R37). -/
def Line.startUp : Line where
  queue := []
  nextArrival := 0
  queueFullSeen := false
  polls := Table.fill 32 ⟨StoredRound.atStartUp 0, .unknown, 0, 0⟩
  pollNow := []
  tag := 0
  exchange := none
  sending := none
  lastServed := 23
  collisions := 0
  unsolicited := 0
  sentIn := none
  answeredIn := none
  idleIn := none

/-- A drive after start-up: every flag clear but UNPOWERED, which every bound drive has (R80). -/
def Drive.startUp (bound : Bool) : Drive where
  manual := 0
  showLevel := 0
  base := 0
  wanted := 0
  granted := 0
  lastSent := 0
  sentKnown := false
  roundsSinceSend := 0
  toldOverCap := false
  toldSpray := 0
  handDue := false
  overMax := false
  tripped := false
  shed := false
  limited := false
  sprayCapped := false
  transit := false
  pending := false
  unpowered := bound

/-- A load's class by kind and mode, TRANSIT being clear after start-up (R95). -/
def classAtStartUp (kind : DriveKind) (mode : DriveMode) : LoadClass :=
  if mode = .inShow then .showLoad else
    match kind with
    | .jet => .showLoad
    | .pump => .water
    | .lamp => .ambient

/-- A row of the load table after start-up (R110). -/
def LoadRow.startUp (cls : LoadClass) : LoadRow := ⟨cls, 0, 0, 0, false, false⟩

/-- A supply record after start-up (R101). -/
def Supply.startUp : Supply := ⟨.off, StoredRound.atStartUp Config.coolDown, true, 0⟩

/-- A zone after start-up (R138): NO-DATA where the rain channel, for a LAWN zone, or the wet channel is named. -/
def Zone.startUp (rainNamed : Bool) (z : ZoneConfig) : Zone where
  rain := false
  wet := false
  spray := false
  manual := false
  rainNoData := rainNamed && decide (z.kind = .lawn)
  wetNoData := z.wetChannel.isSome
  occupants := 0
  transitCount := 0
  holdRemaining := 0
  light := .idle

/-- A mower after start-up (R152). -/
def Mower.startUp : Mower where
  state := .absent
  assigned := none
  stint := 0
  lastMode := .docked
  lastZone := 255
  lastBattery := 0
  retry := 0
  chargeStanding := false
  homeOwed := false
  returnReasons := []
  stintSent := 0
  commands := []

/-- The payload of a notice, its lost-notice count field not yet written (R14). -/
def noticePayload (code subject : Nat) (first second : Int) : List Byte :=
  [byteOf code, byteOf subject] ++ bytesSigned first ++ bytesSigned second ++ [0]

/-- A NOTICE frame (R8). -/
def noticeFrame (code subject : Nat) (first second : Int) : Frame :=
  ⟨Config.headUnit, Config.self, 8#4, 0#4, noticePayload code subject first second⟩

/-- The cause's code in STARTED (R184). -/
def startCauseCode : StartCause → Int
  | .powerUp => 0
  | .resetLine => 1
  | .restart => 2

/-- NOTICE STARTED, whether the image was recalled and with what cause (R184). -/
def startedNotice (recalled : Bool) (cause : StartCause) : Frame :=
  noticeFrame 1 0 (if recalled then 1 else 0) (startCauseCode cause)

/-- Every block in its start-up state, with STARTED at the head of the upstream queue (R188 steps 3 and 4). -/
def Blocks.startUp (t : Tables) (recalled : Bool) (cause : StartCause) : Blocks where
  up := ⟨[⟨startedNotice recalled cause, false⟩], 0, 0⟩
  lines := ⟨Line.startUp, Line.startUp⟩
  forwards := Table.fill 112 ⟨none, none⟩
  channels := Table.fill 16 ⟨0, .empty, Flags.clear, Flags.clear, 0, none⟩
  drives := Table.map (fun (x : DriveBind) => Drive.startUp (decide (x.dest ≠ 0))) t.binds
  slu :=
    { supply := ⟨Supply.startUp, Supply.startUp⟩
      supplyLow := false
      drives := Table.build 24 fun d => LoadRow.startUp (classAtStartUp (t.binds.get d).kind (t.shapes.get d).mode)
      charges := Table.fill 4 (LoadRow.startUp .charge) }
  cues :=
    { runs := Table.fill 64 ⟨0, false, 0, 0, false⟩
      running := Table.fill 4 false
      resolved := [] }
  zones :=
    { zones := Table.map (Zone.startUp t.globals.rainChannel.isSome) t.zones
      rain := .dry
      dryOffRemaining := 0
      windy := false
      dark := false
      overCaps := Table.fill 24 ⟨false, 0⟩
      transitZones := Table.fill 4 none }
  mowers :=
    { mowers := Table.fill 4 Mower.startUp
      pointer := 0
      held := false
      daylight := t.globals.ambientChannel.isNone
      island := false }
  agenda := []

/-- The Trunk Port after start-up (R3, R40, R41, R45, R185). -/
def TrunkPort.startUp (t : Tables) : TrunkPort where
  receiver := .hunting false
  fifo := []
  errors := 0
  formats := 0
  overflows := 0
  silenceTimer := t.globals.silenceTimeout
  timeoutInForce := t.globals.silenceTimeout
  island := false
  islandRounds := 0
  transmitting := none

/-- The part as start-up leaves it at the start of round 0, before the first internal samples, when its tables are `t` (R188). -/
def State.atRoundZero (t : Tables) (recalled : Bool) (cause : StartCause) (image : Image) (pending : List Instr) : State where
  life := .running
  tables := t
  clock := ⟨0, 0⟩
  trunk := TrunkPort.startUp t
  agent := ⟨none, none, image, recalled, .none⟩
  blocks := Blocks.startUp t recalled cause
  pending := pending

/-- A store whose completion mark has never been written. -/
def Image.blank : Image := ⟨Tables.empty, 0, false⟩

/-- The part right after a power-up start-up that found the image invalid (R179, R188): DESIGN CHOICE, unsafe, for the store's
contents before anything has written it and for standing before the samples of round 0 (notes/assumptions/1.md). -/
def State.reset : State := State.atRoundZero Tables.empty false .powerUp Image.blank []

end Sys2Proof.Machine
end

