-- ==== Sys2Proof/Machine/Ops.lean ====
section
/-! DEFINITION. The named operations every block uses: comparing stored rounds (R18), reading and replacing one record of a block,
posting notices and offering frames to the upstream queue (R43, R44, R184), and the pair of a block state with the events it hands on. -/

namespace Sys2Proof.Machine

/-! ## Stored rounds (R18) -/

/-- The difference (c − a) modulo 4,294,967,296 of a stored round and the round counter. -/
def StoredRound.elapsed (r : StoredRound) (now : Round) : Nat := (now - r.round).toNat

/-- Whether a stored round has been reached: once reached it stays so. -/
def StoredRound.reached (r : StoredRound) (now : Round) : Bool :=
  r.saturated || decide (r.elapsed now ≤ Config.maxOverdue)

/-- By how much a reached round is overdue, saturating at 2,147,483,647. -/
def StoredRound.overdue (r : StoredRound) (now : Round) : Nat :=
  if r.saturated then Config.maxOverdue else if r.elapsed now ≤ Config.maxOverdue then r.elapsed now else 0

/-- The round `n` rounds after `now`. -/
def StoredRound.after (now : Round) (n : Nat) : StoredRound := ⟨now + BitVec.ofNat 32 n, false⟩

/-- A stored round as the round counter comes to `now`: at the limit its overdue amount is kept there. -/
def StoredRound.tick (now : Round) (r : StoredRound) : StoredRound :=
  if r.elapsed now = Config.maxOverdue then { r with saturated := true } else r

/-! ## One record of a block -/

def Blocks.line (g : Blocks) (b : Branch) : Line := g.lines.get b
def Blocks.setLine (g : Blocks) (b : Branch) (l : Line) : Blocks := { g with lines := g.lines.set b l }

def Blocks.channel (g : Blocks) (c : Fin 16) : Channel := g.channels.get c
def Blocks.setChannel (g : Blocks) (c : Fin 16) (x : Channel) : Blocks := { g with channels := g.channels.set c x }

def Blocks.drive (g : Blocks) (d : Fin 24) : Drive := g.drives.get d
def Blocks.setDrive (g : Blocks) (d : Fin 24) (x : Drive) : Blocks := { g with drives := g.drives.set d x }

def Blocks.zone (g : Blocks) (z : Fin 32) : Zone := g.zones.zones.get z
def Blocks.setZone (g : Blocks) (z : Fin 32) (x : Zone) : Blocks :=
  { g with zones := { g.zones with zones := g.zones.zones.set z x } }

def Blocks.mower (g : Blocks) (m : Fin 4) : Mower := g.mowers.mowers.get m
def Blocks.setMower (g : Blocks) (m : Fin 4) (x : Mower) : Blocks :=
  { g with mowers := { g.mowers with mowers := g.mowers.mowers.set m x } }

def Blocks.cueRun (g : Blocks) (c : Fin 64) : CueRun := g.cues.runs.get c
def Blocks.setCueRun (g : Blocks) (c : Fin 64) (x : CueRun) : Blocks :=
  { g with cues := { g.cues with runs := g.cues.runs.set c x } }

def Blocks.setSlu (g : Blocks) (u : SupplyUnit) : Blocks := { g with slu := u }

/-- A branch's supply state (R101). -/
def Blocks.supplyState (g : Blocks) (b : Branch) : SupplyState := (g.slu.supply.get b).state

/-- Whether a branch is ON. -/
def Blocks.isOn (g : Blocks) (b : Branch) : Bool := decide (g.supplyState b = .on)

/-! ## The upstream queue -/

/-- The kinds of R6 that the part tells apart. -/
def kindCommand : BitVec 4 := 1
def kindCommandAck : BitVec 4 := 2
def kindPoll : BitVec 4 := 3
def kindAnswer : BitVec 4 := 4
def kindReport : BitVec 4 := 5
def kindManage : BitVec 4 := 6
def kindManageReply : BitVec 4 := 7
def kindNotice : BitVec 4 := 8

/-- Whether a frame of the upstream queue is a REPORT or a NOTICE. -/
def UpFrame.isReportOrNotice (x : UpFrame) : Bool :=
  decide (x.frame.kind = kindReport) || decide (x.frame.kind = kindNotice)

/-- The REPORT and NOTICE frames held. -/
def Upstream.reports (u : Upstream) : Nat := u.queue.countP UpFrame.isReportOrNotice

/-- The places in use: the frames held and the claimed places (R43). -/
def Upstream.inUse (u : Upstream) : Nat := u.queue.length + u.claimed

/-- Whether a REPORT or NOTICE finds a place (R44). -/
def Upstream.hasRoom (u : Upstream) : Bool :=
  decide (u.reports < Config.reportPlaces) && decide (u.inUse < Config.upstreamPlaces)

/-- A REPORT or NOTICE offered: placed at the end of the queue, or dropped and counted (R44). -/
def Upstream.offer (u : Upstream) (f : Frame) : Upstream :=
  if u.hasRoom then { u with queue := u.queue ++ [⟨f, false⟩] } else { u with lost := satInc Config.count8 u.lost }

def Blocks.offer (g : Blocks) (f : Frame) : Blocks := { g with up := g.up.offer f }

/-- The notices of R14. -/
inductive Notice where
  | started
  | channelFlag
  | driveTripped
  | overMax
  | driveOwned
  | sprayCapped
  | loadShed
  | branchTripped
  | branchRestored
  | nodeAbsent
  | nodePresent
  | collision
  | queueFull
  | unrouted
  | cuePostponed
  | cueMissed
  | mowerState
  | mowerOwned
  | noZone
  | islandBegun
  | islandEnded
  deriving DecidableEq, Repr

/-- The notice codes of R14. -/
def Notice.code : Notice → Nat
  | .started => 1
  | .channelFlag => 2
  | .driveTripped => 3
  | .overMax => 4
  | .driveOwned => 5
  | .sprayCapped => 6
  | .loadShed => 7
  | .branchTripped => 8
  | .branchRestored => 9
  | .nodeAbsent => 10
  | .nodePresent => 11
  | .collision => 12
  | .queueFull => 13
  | .unrouted => 14
  | .cuePostponed => 15
  | .cueMissed => 16
  | .mowerState => 17
  | .mowerOwned => 18
  | .noZone => 19
  | .islandBegun => 20
  | .islandEnded => 21

/-- A block posts a notice with its subject and two values (R184): it is offered to the upstream queue. -/
def Blocks.post (g : Blocks) (n : Notice) (subject : Nat) (first second : Int) : Blocks :=
  g.offer (noticeFrame n.code subject first second)

/-! ## A block's act and the events it hands on -/

/-- The state a block leaves and the events it hands to other blocks, in order. -/
abbrev Acts := Blocks × List Task

/-- An act that hands nothing on. -/
def done (g : Blocks) : Acts := (g, [])

/-- One act after another; the first one's events go first. -/
def Acts.andThen (p : Acts) (f : Blocks → Acts) : Acts := ((f p.1).1, p.2 ++ (f p.1).2)

/-- An act followed by more events. -/
def Acts.hand (p : Acts) (ts : List Task) : Acts := (p.1, p.2 ++ ts)

/-- A change of the state only. -/
def Acts.change (p : Acts) (f : Blocks → Blocks) : Acts := (f p.1, p.2)

/-- One act for each member of a list, in its order. -/
def actAll {α : Type} (f : α → Blocks → Acts) : List α → Blocks → Acts
  | [], g => done g
  | x :: xs, g => (f x g).andThen (actAll f xs)

/-! ## Running -/

/-- A command's effect while the part runs; held or without supply the part does nothing (R188). -/
def whenRunning (s : State) (f : State → State) : Host.Outcome State Fault Refusal :=
  .next (match s.life with
    | .running => f s
    | .held => s
    | .unpowered _ => s)

end Sys2Proof.Machine
end

