-- ==== Sys2Proof/Machine/Flags.lean ====
section
/-! DEFINITION. The flags: how a channel's threshold flags move (R68, R70), which changes are noticed and in what order (R71), and the
flag bytes of the read-only tables (R16). -/

namespace Sys2Proof.Machine

/-- A high flag at a new value: clear, it sets above the threshold; set, it clears at or below the threshold less the hysteresis. -/
def highFlag (v t : Int) (hysteresis : Nat) (was : Bool) : Bool :=
  if was then decide (t - hysteresis < v) else decide (t < v)

/-- A low flag at a new value: clear, it sets below the threshold; set, it clears at or above the threshold plus the hysteresis. -/
def lowFlag (v t : Int) (hysteresis : Nat) (was : Bool) : Bool :=
  if was then decide (v < t + hysteresis) else decide (v < t)

/-- The four live flags at a value, each on its own, from the flags as they stood (R68). -/
def evaluateFlags (k : ChannelConfig) (v : Int) (was : Flags) : Flags where
  lowAlarm := lowFlag v k.lowAlarm k.hysteresis was.lowAlarm
  lowWarn := lowFlag v k.lowWarn k.hysteresis was.lowWarn
  highWarn := highFlag v k.highWarn k.hysteresis was.highWarn
  highAlarm := highFlag v k.highAlarm k.hysteresis was.highAlarm

/-- The latched flags with the copies of the live flags set (R70). -/
def Flags.latch (latched live : Flags) : Flags where
  lowAlarm := latched.lowAlarm || live.lowAlarm
  lowWarn := latched.lowWarn || live.lowWarn
  highWarn := latched.highWarn || live.highWarn
  highAlarm := latched.highAlarm || live.highAlarm

/-- One CHANNEL-FLAG notice when a flag changed: its number, negative when it cleared (R71). -/
def postFlag (c : Fin 16) (v : Int) (number : Int) (was is : Bool) (g : Blocks) : Blocks :=
  if was = is then g else g.post .channelFlag c.val v (if is then number else -number)

/-- The CHANNEL-FLAG notices of one update, in the order HIGH-ALARM, HIGH-WARN, LOW-WARN, LOW-ALARM (R71). -/
def postFlags (c : Fin 16) (v : Int) (was is : Flags) (g : Blocks) : Blocks :=
  postFlag c v 1 was.lowAlarm is.lowAlarm
    (postFlag c v 2 was.lowWarn is.lowWarn
      (postFlag c v 3 was.highWarn is.highWarn (postFlag c v 4 was.highAlarm is.highAlarm g)))

/-- Bits by place, bit 0 first. -/
def bitsByte (bits : List Bool) : Byte :=
  byteOf (bits.foldr (fun x n => (if x then 1 else 0) + 2 * n) 0)

/-- The threshold flag byte (R16). -/
def Flags.byte (f : Flags) : Byte := bitsByte [f.lowAlarm, f.lowWarn, f.highWarn, f.highAlarm]

/-- The drive flag byte (R16). -/
def Drive.flagByte (d : Drive) : Byte :=
  bitsByte [d.overMax, d.tripped, d.shed, d.limited, d.sprayCapped, d.transit, d.pending, d.unpowered]

/-- The load mark byte (R16). -/
def LoadRow.markByte (r : LoadRow) : Byte := bitsByte [r.shed, r.limited]

/-- Whether a reason is in a zone's veto set (R138, R141). -/
def Zone.holds (z : Zone) : Veto → Bool
  | .rain => z.rain
  | .wet => z.wet
  | .spray => z.spray
  | .noData => z.rainNoData || z.wetNoData
  | .manual => z.manual

/-- The five reasons in the order R144 reports them, which is the order of their bits (R16). -/
def allVetoes : List Veto := [.rain, .wet, .spray, .noData, .manual]

/-- Whether a zone's veto set is empty. -/
def Zone.unvetoed (z : Zone) : Bool := !(allVetoes.any z.holds)

/-- The veto set byte (R16). -/
def Zone.vetoByte (z : Zone) : Byte := bitsByte (allVetoes.map z.holds)

/-- A yes/no byte (R16). -/
def yesNo (x : Bool) : Byte := if x then 1 else 0

end Sys2Proof.Machine
end

