-- ==== Sys2Proof/Machine/Supply.lean ====
section
/-! DEFINITION. The Supply and Load Unit (chapter 6): the load table of each branch, admission, shedding, limiting, charge requests,
re-admission, reduction, the two switches, and what is pushed to the owners of changed rows. -/

namespace Sys2Proof.Machine

/-! ## The load table (R110, R111) -/

/-- Whether a drive is bound (R76). -/
def Tables.bound (t : Tables) (d : Fin 24) : Bool := decide ((t.binds.get d).dest ≠ 0)

/-- A row's rated current (R110). -/
def Tables.rated (t : Tables) : LoadId → Nat
  | .drive d => (t.limits.get d).rated
  | .charge m => (t.mowers.get m).chargeCurrent

/-- Whether a row stands in branch `b`'s load table (R110, R111). -/
def Tables.loadOn (t : Tables) (b : Branch) : LoadId → Bool
  | .drive d => t.bound d && decide ((t.binds.get d).branch = b)
  | .charge m => (t.mowers.get m).enabled && decide ((t.mowers.get m).branch = b)

/-- Every row, drives before charges, each in ascending number. -/
def allLoads : List LoadId := (indices 24).map LoadId.drive ++ (indices 4).map LoadId.charge

/-- The rows of a branch. -/
def Tables.branchLoads (t : Tables) (b : Branch) : List LoadId := allLoads.filter (t.loadOn b)

def SupplyUnit.row (u : SupplyUnit) : LoadId → LoadRow
  | .drive d => u.drives.get d
  | .charge m => u.charges.get m

def SupplyUnit.setRow (u : SupplyUnit) (i : LoadId) (r : LoadRow) : SupplyUnit :=
  match i with
  | .drive d => { u with drives := u.drives.set d r }
  | .charge m => { u with charges := u.charges.set m r }

/-- A row's LOAD-STATE entry number (R118). -/
def LoadId.entry : LoadId → Nat
  | .drive d => d.val
  | .charge m => 24 + m.val

/-- The granted current of a level: ceil(rated × level ÷ 255) (R110). -/
def levelCurrent (rated level : Nat) : Nat := ceilDiv (rated * level) 255

/-- The largest level that fits an allowance: floor(allowance × 255 ÷ rated) (R114). -/
def levelFitting (rated allowance : Nat) : Nat := allowance * 255 / rated

/-- The sum of granted currents of some rows. -/
def SupplyUnit.sumOf (u : SupplyUnit) (is : List LoadId) : Nat := (is.map fun i => (u.row i).current).sum

/-- The sum of granted currents on a branch. -/
def SupplyUnit.grantSum (u : SupplyUnit) (t : Tables) (b : Branch) : Nat := u.sumOf (t.branchLoads b)

/-- The effective budget (R109). -/
def SupplyUnit.effective (u : SupplyUnit) (t : Tables) (b : Branch) : Nat :=
  match (u.supply.get b).state with
  | .on => if u.supplyLow then (t.supply.get b).budget / 2 else (t.supply.get b).budget
  | .off => 0
  | .tripped => 0

/-- The effective budget less every other row's grant (R112). -/
def SupplyUnit.freeFor (u : SupplyUnit) (t : Tables) (b : Branch) (i : LoadId) : Nat :=
  u.effective t b - u.sumOf ((t.branchLoads b).filter fun j => decide (j ≠ i))

/-- A class's standing (R16). -/
def LoadClass.rank : LoadClass → Nat
  | .ambient => 0
  | .charge => 1
  | .showLoad => 2
  | .water => 3
  | .safety => 4

/-- The classes, lowest first. -/
def classesUp : List LoadClass := [.ambient, .charge, .showLoad, .water, .safety]

/-- A branch's rows of one class, in ascending number. -/
def SupplyUnit.rowsOf (u : SupplyUnit) (t : Tables) (b : Branch) (k : LoadClass) : List LoadId :=
  (t.branchLoads b).filter fun i => decide ((u.row i).cls = k)

/-- The rows of some classes in the order they give up current: by class, and within a class from the highest number down (R113). -/
def SupplyUnit.givingOrder (u : SupplyUnit) (t : Tables) (b : Branch) (ks : List LoadClass) : List LoadId :=
  ks.flatMap fun k => (u.rowsOf t b k).reverse

/-- The classes strictly below one. -/
def LoadClass.below (k : LoadClass) : List LoadClass := classesUp.filter fun j => decide (j.rank < k.rank)

/-! ## Shedding and reduction (R113, R117) -/

/-- A drive row lowered to a level, marked SHED. -/
def LoadRow.lowered (r : LoadRow) (rated level : Nat) : LoadRow :=
  { r with granted := level, current := levelCurrent rated level, shed := true, limited := false }

/-- A charge row suspended: its grant off, its request standing, marked SHED. -/
def LoadRow.suspended (r : LoadRow) : LoadRow :=
  { r with granted := 0, current := 0, shed := true, limited := false }

/-- One row gives up current as far as `need`, a drive not below its floor (R113). -/
def giveUp (t : Tables) (need : Nat) (i : LoadId) (u : SupplyUnit) : SupplyUnit :=
  let r := u.row i
  match i with
  | .drive d =>
    let l := t.limits.get d
    if l.rated = 0 ∨ r.granted ≤ l.floorLevel then u
    else u.setRow i (r.lowered l.rated
      (max l.floorLevel (if need < r.current then levelFitting l.rated (r.current - need) else 0)))
  | .charge _ => if r.granted = 0 then u else u.setRow i r.suspended

/-- One drive row gives up current as far as `need`, below its floor (R117, second pass). -/
def giveUpBelowFloor (t : Tables) (need : Nat) (i : LoadId) (u : SupplyUnit) : SupplyUnit :=
  let r := u.row i
  match i with
  | .drive d =>
    let l := t.limits.get d
    if r.granted = 0 then u
    else u.setRow i (r.lowered l.rated (if need < r.current then levelFitting l.rated (r.current - need) else 0))
  | .charge _ => u

/-- Rows give up current in order until nothing more is needed; and the rows taken. -/
def giveUntil (need : SupplyUnit → Nat) (give : Nat → LoadId → SupplyUnit → SupplyUnit) :
    List LoadId → SupplyUnit → SupplyUnit × List LoadId
  | [], u => (u, [])
  | i :: is, u =>
    if need u = 0 then (u, [])
    else
      let u' := give (need u) i u
      let rest := giveUntil need give is u'
      (rest.1, if u'.row i = u.row i then rest.2 else i :: rest.2)

/-! ## Re-admission (R116) -/

/-- Whether a row is one re-admission takes: marked, or a charge row with a standing request. -/
def SupplyUnit.waiting (u : SupplyUnit) (i : LoadId) : Bool :=
  let r := u.row i
  r.shed || r.limited ||
    match i with
    | .drive _ => false
    | .charge _ => decide (r.wanted = 1 ∧ r.granted = 0)

/-- One row's turn in re-admission. -/
def raiseRow (t : Tables) (b : Branch) (i : LoadId) (u : SupplyUnit) : SupplyUnit :=
  let r := u.row i
  let free := u.freeFor t b i
  if u.waiting i then
    match i with
    | .drive d =>
      let rated := (t.limits.get d).rated
      let demand := levelCurrent rated r.wanted
      if demand ≤ free then
        u.setRow i { r with granted := r.wanted, current := demand, shed := false, limited := false }
      else
        let level := min r.wanted (max r.granted (levelFitting rated free))
        u.setRow i { r with granted := level, current := levelCurrent rated level }
    | .charge m =>
      let demand := (t.mowers.get m).chargeCurrent
      if r.wanted = 1 ∧ r.granted = 0 ∧ demand ≤ free then
        u.setRow i { r with granted := 1, current := demand, shed := false, limited := false }
      else u
  else u

/-- Rows take their turns; and the rows that changed. -/
def raiseAll (t : Tables) (b : Branch) : List LoadId → SupplyUnit → SupplyUnit × List LoadId
  | [], u => (u, [])
  | i :: is, u =>
    let u' := raiseRow t b i u
    let rest := raiseAll t b is u'
    (rest.1, if u'.row i = u.row i then rest.2 else i :: rest.2)

/-- Re-admission on a branch that is ON: by class from the highest, within a class in ascending number. -/
def SupplyUnit.readmit (u : SupplyUnit) (t : Tables) (b : Branch) : SupplyUnit × List LoadId :=
  if (u.supply.get b).state = .on then
    raiseAll t b (classesUp.reverse.flatMap fun k => u.rowsOf t b k) u
  else (u, [])

/-! ## Admission of a drive (R112, R114) -/

/-- What an event at the unit did: the unit after it, the rows whose grant fell by shedding or reduction, and the rows raised. -/
structure LoadEvent where
  unit : SupplyUnit
  fell : List LoadId
  raised : List LoadId

/-- The row of an admitted drive: its wanted level where the demand fits, else the largest level that fits, marked LIMITED. -/
def grantedRow (rated wanted free : Nat) (r : LoadRow) : LoadRow :=
  if levelCurrent rated wanted ≤ free then
    { r with granted := wanted, current := levelCurrent rated wanted, shed := false, limited := false }
  else
    { r with granted := min wanted (levelFitting rated free),
             current := levelCurrent rated (min wanted (levelFitting rated free)), shed := false, limited := true }

/-- A drive is admitted with the wanted level and class handed: in full where it fits, after shedding lower classes where it does not;
re-admission follows when its grant has fallen. -/
def SupplyUnit.admitDrive (u : SupplyUnit) (t : Tables) (b : Branch) (d : Fin 24) (wanted : Nat) (k : LoadClass) : LoadEvent :=
  let i := LoadId.drive d
  let old := u.row i
  let rated := (t.limits.get d).rated
  let u₁ := u.setRow i { old with cls := k, wanted := wanted }
  let shed := giveUntil (fun x => levelCurrent rated wanted - x.freeFor t b i) (giveUp t)
    (u₁.givingOrder t b k.below) u₁
  let row := grantedRow rated wanted (shed.1.freeFor t b i) (shed.1.row i)
  let u₂ := shed.1.setRow i row
  if row.granted < old.granted ∨ row.current < old.current then
    let back := u₂.readmit t b
    ⟨back.1, shed.2, back.2⟩
  else ⟨u₂, shed.2, []⟩

/-! ## Charge requests (R115) and changes of a charge row (R111) -/

/-- A charge row off, without marks. -/
def LoadRow.chargeOff (r : LoadRow) : LoadRow := { r with wanted := 0, granted := 0, current := 0, shed := false, limited := false }

/-- A charge row on, without marks. -/
def LoadRow.chargeOn (r : LoadRow) (current : Nat) : LoadRow :=
  { r with wanted := 1, granted := 1, current := current, shed := false, limited := false }

/-- The current an AMBIENT drive could give up: its grant above its floor level's current. -/
def sparable (t : Tables) (u : SupplyUnit) : LoadId → Nat
  | .drive d =>
    let l := t.limits.get d
    let r := u.drives.get d
    if l.floorLevel < r.granted then r.current - levelCurrent l.rated l.floorLevel else 0
  | .charge _ => 0

/-- A charge current sought for a row: where it fits, or where AMBIENT drives can give up enough, the row is on after the shedding;
otherwise `none`, and nothing is shed. -/
def SupplyUnit.fitCharge (u : SupplyUnit) (t : Tables) (b : Branch) (m : Fin 4) : Option LoadEvent :=
  let i := LoadId.charge m
  let demand := (t.mowers.get m).chargeCurrent
  let spare := ((u.rowsOf t b .ambient).map (sparable t u)).sum
  if demand ≤ u.freeFor t b i + spare then
    let shed := giveUntil (fun x => demand - x.freeFor t b i) (giveUp t) (u.givingOrder t b [.ambient]) u
    some ⟨shed.1.setRow i ((shed.1.row i).chargeOn demand), shed.2, []⟩
  else none

/-- A charge request: the event, and whether it is GRANTED (R115). A charge current of 0 fits a branch of budget 0, although R108 says
that every charge request there is denied (notes/assumptions/40.md). -/
def SupplyUnit.chargeRequest (u : SupplyUnit) (t : Tables) (m : Fin 4) : LoadEvent × Bool :=
  let k := t.mowers.get m
  let i := LoadId.charge m
  if (u.supply.get k.branch).state ≠ .on ∨ k.enabled = false then (⟨u, [], []⟩, false)
  else if (u.row i).granted = 1 then (⟨u, [], []⟩, true)
  else
    match u.fitCharge t k.branch m with
    | some e => (e, true)
    | none => (⟨u.setRow i (u.row i).chargeOff, [], []⟩, false)

/-- A charge row goes off; re-admission follows when it held a grant. -/
def SupplyUnit.chargeRelease (u : SupplyUnit) (t : Tables) (m : Fin 4) : LoadEvent :=
  let i := LoadId.charge m
  let u' := u.setRow i (u.row i).chargeOff
  if (u.row i).granted = 1 then
    let back := u'.readmit t (t.mowers.get m).branch
    ⟨back.1, [], back.2⟩
  else ⟨u', [], []⟩

/-- A granted charge row is admitted afresh with a changed charge current; where it no longer fits it is suspended (R111). -/
def SupplyUnit.chargeChanged (u : SupplyUnit) (t : Tables) (m : Fin 4) : LoadEvent :=
  let i := LoadId.charge m
  let b := (t.mowers.get m).branch
  let old := u.row i
  if old.granted = 1 then
    match u.fitCharge t b m with
    | some e =>
      if (t.mowers.get m).chargeCurrent < old.current then
        let back := e.unit.readmit t b
        ⟨back.1, e.fell, back.2⟩
      else e
    | none =>
      let back := (u.setRow i old.suspended).readmit t b
      ⟨back.1, [], i :: back.2⟩
  else ⟨u, [], []⟩

/-! ## What follows an event (R118) -/

/-- The LOAD-SHED notices of the rows whose grant fell. -/
def postShed (before after : SupplyUnit) : List LoadId → Blocks → Blocks
  | [], g => g
  | i :: is, g =>
    postShed before after is
      (if (after.row i).granted < (before.row i).granted then
        g.post .loadShed i.entry (before.row i).granted (after.row i).granted
      else g)

/-- The push of a changed row to its owner. -/
def pushOf (before after : SupplyUnit) (i : LoadId) : List Task :=
  let r := before.row i
  let r' := after.row i
  match i with
  | .drive d => if r.granted = r'.granted ∧ r.shed = r'.shed ∧ r.limited = r'.limited then [] else [.pushDrive d]
  | .charge m =>
    if r.granted = r'.granted then [] else if r'.granted = 1 then [.pushCharge m .granted] else [.pushCharge m .suspended]

/-- Whether a row is a drive's. -/
def LoadId.isDrive : LoadId → Bool
  | .drive _ => true
  | .charge _ => false

/-- An event's load table is whole: the notices, then the pushes of every changed row but the asker's, drive rows first and charge
rows after them, each in the order taken. -/
def publish (e : LoadEvent) (asker : Option LoadId) (g : Blocks) : Acts :=
  let g' := postShed g.slu e.unit e.fell (g.setSlu e.unit)
  let rows := (e.fell ++ e.raised).eraseDups.filter fun i => decide (some i ≠ asker)
  (g', (rows.filter LoadId.isDrive ++ rows.filter fun i => !i.isDrive).flatMap (pushOf g.slu e.unit))

/-! ## Budgets (R108, R109, R117) -/

/-- The reduction of a branch's grants to its effective budget, in two passes. -/
def SupplyUnit.reduceTo (u : SupplyUnit) (t : Tables) (b : Branch) : LoadEvent :=
  let excess := fun (x : SupplyUnit) => x.grantSum t b - x.effective t b
  let order := u.givingOrder t b classesUp
  let first := giveUntil excess (giveUp t) order u
  let second := giveUntil excess (giveUpBelowFloor t) order first.1
  ⟨second.1, (first.2 ++ second.2).eraseDups, []⟩

/-- A branch's effective budget was `old` and has changed: reduction where it is below the sum of grants, re-admission where it rose. -/
def budgetChanged (t : Tables) (b : Branch) (old : Nat) (g : Blocks) : Acts :=
  let u := g.slu
  let new := u.effective t b
  if new < u.grantSum t b then publish (u.reduceTo t b) none g
  else if old < new then
    let back := u.readmit t b
    publish ⟨back.1, [], back.2⟩ none g
  else done g

/-- Supply low becomes `low`: each branch that is ON acts on its new effective budget, Branch A first (R109). Both load tables stand
whole, with Branch B's notices posted, before the pushes of Branch A are taken, which is the model's choice
(notes/assumptions/11.md). -/
def setSupplyLow (t : Tables) (low : Bool) (g : Blocks) : Acts :=
  if g.slu.supplyLow = low then done g
  else
    let oldA := g.slu.effective t .branchA
    let oldB := g.slu.effective t .branchB
    let g' := g.setSlu { g.slu with supplyLow := low }
    (if g'.isOn .branchA then budgetChanged t .branchA oldA g' else done g').andThen fun h =>
      if h.isOn .branchB then budgetChanged t .branchB oldB h else done h

/-! ## The switches (R101–R107) -/

def SupplyUnit.setSupply (u : SupplyUnit) (b : Branch) (x : Supply) : SupplyUnit := { u with supply := u.supply.set b x }

/-- A row released: wanted and grant 0, no marks (R103). -/
def LoadRow.released (r : LoadRow) : LoadRow := { r with wanted := 0, granted := 0, current := 0, shed := false, limited := false }

/-- Every row of a branch released. -/
def SupplyUnit.releaseBranch (u : SupplyUnit) (t : Tables) (b : Branch) : SupplyUnit :=
  (t.branchLoads b).foldl (fun x i => x.setRow i (x.row i).released) u

/-- The reports of a branch leaving ON: the releases the Mower Dispatcher takes within the unit's event, then the Branch Line
Controller, the Measurement Unit and the Drive Unit (R103 step 5). Several mowers' releases go in ascending mower number, which is the
model's choice, as is their place before the others (notes/assumptions/11.md). -/
def leaveReports (t : Tables) (b : Branch) (u : SupplyUnit) : List Task :=
  (((indices 4).filter fun m => t.loadOn b (.charge m) && decide ((u.charges.get m).granted = 1)).map
    fun m => Task.pushCharge m .released) ++ [.lineOff b, .channelsOff b, .drivesOff b]

/-- A branch trips on its fourth sample (R103). -/
def trip (t : Tables) (now : Round) (b : Branch) (sample : Int) (g : Blocks) : Acts :=
  let u := g.slu
  let x := u.supply.get b
  let u' := (u.releaseBranch t b).setSupply b
    { x with state := .tripped, tripCount := 0, coolEnd := StoredRound.after now Config.coolDown }
  ((g.setSlu u').post .branchTripped b.code sample (u.grantSum t b), leaveReports t b u)

/-- An ON branch is switched OFF (R105). -/
def switchOff (t : Tables) (b : Branch) (g : Blocks) : Acts :=
  let u := g.slu
  let x := u.supply.get b
  (g.setSlu ((u.releaseBranch t b).setSupply b { x with state := .off, tripCount := 0 }), leaveReports t b u)

/-- A supply state's code (R16). -/
def SupplyState.code : SupplyState → Nat
  | .off => 0
  | .on => 1
  | .tripped => 2

/-- A branch becomes ON (R107). -/
def becomeOn (t : Tables) (b : Branch) (g : Blocks) : Acts :=
  let x := g.slu.supply.get b
  let u := (g.slu.releaseBranch t b).setSupply b { x with state := .on, tripCount := 0, armed := false }
  ((g.setSlu u).post .branchRestored b.code x.state.code (u.effective t b), [.drivesOn b, .mowersOn b])

/-- The branch whose current a channel carries (R102). -/
def currentBranch (c : Fin 16) : Option Branch :=
  if c = 12 then some .branchA else if c = 13 then some .branchB else none

/-- A sample report of a branch's current (R102). -/
def takeCurrent (t : Tables) (now : Round) (b : Branch) (r : ChannelReport) (g : Blocks) : Acts :=
  let x := g.slu.supply.get b
  if x.state = .on then
    if r.live.highAlarm then
      if x.tripCount + 1 < Config.samplesToTrip then
        done (g.setSlu (g.slu.setSupply b { x with tripCount := x.tripCount + 1 }))
      else trip t now b r.value g
    else done (g.setSlu (g.slu.setSupply b { x with tripCount := 0 }))
  else done (g.setSlu (g.slu.setSupply b { x with tripCount := 0 }))

/-- The Supply and Load Unit takes a channel report (R74, R102, R109). -/
def supplyReport (t : Tables) (now : Round) (r : ChannelReport) (g : Blocks) : Acts :=
  match currentBranch r.channel with
  | some b => if r.cause = .newValue then takeCurrent t now b r g else done g
  | none => if r.channel = 14 then setSupplyLow t r.live.lowWarn g else done g

/-- A round start that reaches the cool-down end of a branch whose auto-on is armed (R106). -/
def autoOnRound (t : Tables) (now : Round) (b : Branch) (g : Blocks) : Acts :=
  let x := g.slu.supply.get b
  if x.armed = true ∧ x.coolEnd.reached now = true then
    let g' := g.setSlu (g.slu.setSupply b { x with armed := false })
    if (t.supply.get b).autoOn then becomeOn t b g' else done g'
  else done g

end Sys2Proof.Machine
end

