-- ==== Sys2Proof/Machine/Drives.lean ====
section
/-! DEFINITION. The Drive Unit (chapter 5): the stages of a recomputation, the hand-over to admission, UPDATE-PENDING, the refresh, the
send report, and what a branch leaving or becoming ON does to the drives bound to it. -/

namespace Sys2Proof.Machine

/-! ## Reading channels in a recomputation (R82) -/

/-- What a recomputation sees of a channel. -/
structure ChannelView where
  value : Int
  state : ChannelState
  live : Flags
  deriving DecidableEq, Repr

/-- A channel as a recomputation sees it: the report's contents for the report's channel, the record as it stands for any other. -/
def Blocks.view (g : Blocks) (seen : Option ChannelReport) (c : Fin 16) : ChannelView :=
  let x := g.channel c
  match seen with
  | some r => if r.channel = c then ⟨r.value, r.state, r.live⟩ else ⟨x.value, x.state, x.live⟩
  | none => ⟨x.value, x.state, x.live⟩

/-! ## The stages (R85–R92) -/

/-- The level of a curve at an index value (R86). -/
def curveLevel (points : Table Nat 32) (base : Int) (step : Nat) (v : Int) : Nat :=
  let d := v - base
  if d < 0 then points.get 0
  else if 31 * (step : Int) ≤ d then points.get 31
  else
    let i := d.toNat / step
    let f := (d.toNat % step) * 256 / step
    let a := points.get (Fin.ofNat 32 i)
    let b := points.get (Fin.ofNat 32 (i + 1))
    ((a : Int) + (((b : Int) - a) * f).tdiv 256).toNat

/-- Stage 1: the base level (R85). -/
def baseLevel (t : Tables) (g : Blocks) (d : Fin 24) (seen : Option ChannelReport) : Nat :=
  let k := t.shapes.get d
  match k.mode with
  | .off => 0
  | .manual => (g.drive d).manual
  | .inShow => (g.drive d).showLevel
  | .auto =>
    let x := g.view seen k.indexChannel
    match x.state with
    | .empty => (t.limits.get d).fallbackLevel
    | .stale => (g.drive d).base
    | .fresh => curveLevel (t.curves.get k.curve) k.base k.step x.value

/-- Stage 2: the boost (R87). -/
def boostStage (t : Tables) (g : Blocks) (d : Fin 24) (seen : Option ChannelReport) (level : Nat) : Nat :=
  let k := t.shapes.get d
  match k.boostChannel with
  | some c => if (g.view seen c).live.highWarn then min 255 (level + k.boostAmount) else level
  | none => level

/-- Stage 3: the hold-down (R88). -/
def holdStage (t : Tables) (g : Blocks) (d : Fin 24) (seen : Option ChannelReport) (level : Nat) : Nat :=
  let k := t.shapes.get d
  match k.holdChannel with
  | some c =>
    let x := g.view seen c
    if x.live.lowWarn = true ∨ x.state ≠ .fresh then min level k.holdLevel else level
  | none => level

/-- Whether a zone is in a spray set. -/
def inSpray (s : ZoneSet) (z : Fin 32) : Bool := s.getLsbD z.val

/-- Whether a zone of a drive's spray set has an occupant. -/
def sprayOccupied (t : Tables) (g : Blocks) (d : Fin 24) : Bool :=
  (indices 32).any fun z => inSpray (t.limits.get d).spraySet z && decide ((g.zone z).occupants ≠ 0)

/-- Stage 4: the spray cap (R89). -/
def sprayStage (t : Tables) (g : Blocks) (d : Fin 24) (level : Nat) : Nat :=
  if (t.binds.get d).kind = .jet ∧ sprayOccupied t g d = true then min level (t.limits.get d).sprayCap else level

/-- Stage 5: the transit floor (R90). -/
def transitStage (t : Tables) (g : Blocks) (d : Fin 24) (level : Nat) : Nat :=
  if (t.binds.get d).kind = .lamp ∧ (g.drive d).transit = true then max level (t.limits.get d).transitLevel else level

/-- Stage 6: the max level (R91). -/
def maxStage (t : Tables) (d : Fin 24) (level : Nat) : Nat := min level (t.limits.get d).maxLevel

/-- Whether the flag a drive's trip sense names is live on its trip channel (R92, R93). -/
def tripFlag (t : Tables) (g : Blocks) (d : Fin 24) (seen : Option ChannelReport) : Bool :=
  let k := t.shapes.get d
  match k.tripChannel with
  | some c =>
    let x := g.view seen c
    match k.tripSense with
    | .lowAlarm => x.live.lowAlarm
    | .highAlarm => x.live.highAlarm
  | none => false

/-- Stage 7: the fallback cap, and 0 for a tripped drive (R92). -/
def tripStage (t : Tables) (g : Blocks) (d : Fin 24) (seen : Option ChannelReport) (level : Nat) : Nat :=
  if ((g.drive d).tripped || tripFlag t g d seen) = true then 0
  else
    match (t.shapes.get d).tripChannel with
    | some c => if (g.view seen c).state = .fresh then level else min level (t.limits.get d).fallbackLevel
    | none => level

/-- The level before stage 4. -/
def levelToSpray (t : Tables) (g : Blocks) (d : Fin 24) (seen : Option ChannelReport) : Nat :=
  holdStage t g d seen (boostStage t g d seen (baseLevel t g d seen))

/-- The level before stage 6. -/
def levelToMax (t : Tables) (g : Blocks) (d : Fin 24) (seen : Option ChannelReport) : Nat :=
  transitStage t g d (sprayStage t g d (levelToSpray t g d seen))

/-- The wanted level: all the stages, of which OFF skips stages 2 to 6 (R85, R94). -/
def wantedLevel (t : Tables) (g : Blocks) (d : Fin 24) (seen : Option ChannelReport) : Nat :=
  if (t.shapes.get d).mode = .off then tripStage t g d seen 0
  else tripStage t g d seen (maxStage t d (levelToMax t g d seen))

/-- Whether stage 4 lowers the level. -/
def sprayLowers (t : Tables) (g : Blocks) (d : Fin 24) (seen : Option ChannelReport) : Bool :=
  decide ((t.shapes.get d).mode ≠ .off) && decide (sprayStage t g d (levelToSpray t g d seen) < levelToSpray t g d seen)

/-- Whether stage 6 lowers the level. -/
def maxLowers (t : Tables) (g : Blocks) (d : Fin 24) (seen : Option ChannelReport) : Bool :=
  decide ((t.shapes.get d).mode ≠ .off) && decide ((t.limits.get d).maxLevel < levelToMax t g d seen)

/-! ## Class and UPDATE-PENDING (R95–R97) -/

/-- A drive's load class (R95). -/
def classOf (kind : DriveKind) (mode : DriveMode) (transit : Bool) : LoadClass :=
  if kind = .lamp ∧ transit = true then .safety else classAtStartUp kind mode

def driveClass (t : Tables) (g : Blocks) (d : Fin 24) : LoadClass :=
  classOf (t.binds.get d).kind (t.shapes.get d).mode (g.drive d).transit

/-- Whether a bound, powered drive's refresh is due (R97). -/
def refreshDue (l : DriveLimit) (x : Drive) : Bool :=
  decide (l.refresh ≠ 0) && decide (0 < x.granted) && x.sentKnown && decide (l.refresh ≤ x.roundsSinceSend)

/-- The size of the difference of two levels. -/
def levelGap (a b : Nat) : Nat := (a - b) + (b - a)

/-- UPDATE-PENDING of a bound drive that is not UNPOWERED, against the last sent level (R96). -/
def pendingAfter (l : DriveLimit) (x : Drive) : Bool :=
  if x.sentKnown = false then true
  else if x.granted ≠ x.lastSent ∧ l.deadband ≤ levelGap x.granted x.lastSent then true
  else if x.granted ≠ x.lastSent ∧ (x.granted = 0 ∨ x.granted = l.maxLevel) then true
  else if refreshDue l x then true
  else if x.granted = x.lastSent then false
  else x.pending

/-- UPDATE-PENDING evaluated; an unbound or UNPOWERED drive is not pending. -/
def settlePending (t : Tables) (d : Fin 24) (g : Blocks) : Blocks :=
  let x := g.drive d
  g.setDrive d { x with pending := t.bound d && !x.unpowered && pendingAfter (t.limits.get d) x }

/-! ## The hand-over and the Zone Unit's report (R94) -/

/-- The drive takes its row's granted level and marks. -/
def takeRow (d : Fin 24) (g : Blocks) : Blocks :=
  let r := g.slu.drives.get d
  g.setDrive d { g.drive d with granted := r.granted, shed := r.shed, limited := r.limited }

/-- A wanted level and class handed to the Supply and Load Unit, which decides at once. -/
def handOver (t : Tables) (d : Fin 24) (g : Blocks) : Acts :=
  let p := publish (g.slu.admitDrive t (t.binds.get d).branch d (g.drive d).wanted (driveClass t g d)) (some (.drive d)) g
  p.change fun h => takeRow d (h.setDrive d { h.drive d with handDue := false })

/-- Whether a hand-over is due. -/
def handOverDue (t : Tables) (d : Fin 24) (g : Blocks) : Bool :=
  let x := g.drive d
  let r := g.slu.drives.get d
  t.bound d && !x.unpowered && g.isOn (t.binds.get d).branch &&
    (x.handDue || decide (r.wanted ≠ x.wanted) || decide (r.cls ≠ driveClass t g d))

/-- Whether a jet's granted level is above its spray cap. -/
def isOverCap (t : Tables) (d : Fin 24) (g : Blocks) : Bool :=
  decide ((t.binds.get d).kind = .jet) && decide ((t.limits.get d).sprayCap < (g.drive d).granted)

/-- The Zone Unit is told a jet's over-cap state and spray set when either changed since it was last told; a drive that is no longer
a jet is told as not over cap if it was told over. -/
def tellZones (t : Tables) (d : Fin 24) (g : Blocks) : Acts :=
  let x := g.drive d
  let spray := (t.limits.get d).spraySet
  let isOver := isOverCap t d g
  if isOver ≠ x.toldOverCap ∨ ((t.binds.get d).kind = .jet ∧ spray ≠ x.toldSpray) then
    (g.setDrive d { x with toldOverCap := isOver, toldSpray := spray }, [.overCap d isOver spray])
  else done g

/-! ## The recomputation (R82) -/

/-- The state after stages 1 to 7: the levels, the flags and the notices they post. -/
def runStages (t : Tables) (d : Fin 24) (seen : Option ChannelReport) (g : Blocks) : Blocks :=
  let x := g.drive d
  let l := t.limits.get d
  let before := levelToSpray t g d seen
  let top := levelToMax t g d seen
  let sprays := sprayLowers t g d seen
  let tops := maxLowers t g d seen
  let trips := tripFlag t g d seen
  let x' := { x with
    base := baseLevel t g d seen, wanted := wantedLevel t g d seen,
    sprayCapped := sprays, overMax := x.overMax || tops, tripped := x.tripped || trips }
  let g₁ := g.setDrive d x'
  let g₂ := if sprays && !x.sprayCapped then g₁.post .sprayCapped d.val before l.sprayCap else g₁
  let g₃ := if tops && !x.overMax then g₂.post .overMax d.val top l.maxLevel else g₂
  match (t.shapes.get d).tripChannel with
  | some c => if trips && !x.tripped then g₃.post .driveTripped d.val c.val (g.view seen c).value else g₃
  | none => g₃

/-- A recomputation: stages 1 to 8, the grant, UPDATE-PENDING, and what the Zone Unit is told. The pushes of other rows come after. -/
def recompute (t : Tables) (d : Fin 24) (seen : Option ChannelReport) (g : Blocks) : Acts :=
  let g₁ := runStages t d seen g
  let handed := if handOverDue t d g₁ then handOver t d g₁ else done g₁
  let told := tellZones t d (settlePending t d handed.1)
  (told.1, told.2 ++ handed.2)

/-- The drives naming a channel, in ascending number (R74, R82). -/
def drivesNaming (t : Tables) (c : Fin 16) : List (Fin 24) :=
  (indices 24).filter fun d =>
    let k := t.shapes.get d
    decide (k.indexChannel = c) || decide (k.boostChannel = some c) || decide (k.holdChannel = some c) ||
      decide (k.tripChannel = some c)

/-- The Drive Unit takes a channel report (R74, R82). -/
def driveReport (t : Tables) (r : ChannelReport) (g : Blocks) : Acts :=
  (g, (drivesNaming t r.channel).map fun d => .recompute d (some r))

/-- A drive row's grant or marks are pushed (R118). -/
def pushDrive (t : Tables) (d : Fin 24) (g : Blocks) : Acts := recompute t d none (takeRow d g)

/-- The Cue Scheduler writes a show level (R84). -/
def writeShowLevel (t : Tables) (d : Fin 24) (level : Nat) (g : Blocks) : Acts :=
  if (g.drive d).showLevel = level then done g
  else recompute t d none (g.setDrive d { g.drive d with showLevel := level })

/-- A manual level written (R83): taken at or below the max level, else OVER-MAX latches. -/
def writeManualLevel (t : Tables) (d : Fin 24) (level : Nat) (g : Blocks) : Blocks :=
  let x := g.drive d
  let l := t.limits.get d
  if level ≤ l.maxLevel then g.setDrive d { x with manual := level }
  else
    let g' := g.setDrive d { x with overMax := true }
    if x.overMax then g' else g'.post .overMax d.val level l.maxLevel

/-- A manual level write from the Frame Router: the drive is recomputed when its manual level changed (R50, R83). -/
def manualWrite (t : Tables) (d : Fin 24) (level : Nat) (g : Blocks) : Acts :=
  let g' := writeManualLevel t d level g
  if (g'.drive d).manual = (g.drive d).manual then done g' else recompute t d none g'

/-! ## Sending and refreshing (R97, R98) -/

/-- A round start reaches a drive (R97). -/
def ageDrive (t : Tables) (d : Fin 24) (g : Blocks) : Acts :=
  let x := g.drive d
  let x' := { x with roundsSinceSend := satInc Config.count8 x.roundsSinceSend }
  done (g.setDrive d { x' with pending := x.pending || (t.bound d && !x.unpowered && refreshDue (t.limits.get d) x') })

/-- A drive was sent at a level with a clean echo (R98). -/
def driveSent (t : Tables) (d : Fin 24) (level : Nat) (g : Blocks) : Blocks :=
  settlePending t d (g.setDrive d { g.drive d with lastSent := level, sentKnown := true, roundsSinceSend := 0 })

/-! ## Branch supply (R99, R100) -/

/-- The drives bound to a branch, in ascending number. -/
def drivesOn (t : Tables) (b : Branch) : List (Fin 24) := (indices 24).filter fun d => t.loadOn b (.drive d)

/-- One drive of a branch that left ON (R99); one whose branch is ON again is left alone. -/
def unpowerDrive (t : Tables) (d : Fin 24) (g : Blocks) : Acts :=
  if g.isOn (t.binds.get d).branch then done g
  else recompute t d none (g.setDrive d { g.drive d with
    unpowered := true, granted := 0, shed := false, limited := false, pending := false, sentKnown := false })

/-- A branch left ON (R99). -/
def drivesUnpowered (t : Tables) (b : Branch) (g : Blocks) : Acts := (g, (drivesOn t b).map Task.unpower)

/-- A branch became ON (R100): UNPOWERED clears on its drives, and each is recomputed and handed over in ascending number; where the
branch is ON no longer, nothing is done. -/
def drivesPowered (t : Tables) (b : Branch) (g : Blocks) : Acts :=
  if g.isOn b then
    ((drivesOn t b).foldl (fun h d => h.setDrive d { h.drive d with unpowered := false, handDue := true }) g,
      (drivesOn t b).map fun d => .recompute d none)
  else done g

/-! ## Accepted writes (R77–R79) -/

/-- A frame on the line that carries drive `d`'s level: its send report will be discarded (R98). -/
def Sending.markRebound (d : Fin 24) (x : Sending) : Sending :=
  match x.source with
  | .drive e => if e = d then { x with rebound := true } else x
  | .cue w => if w.send = .drive d then { x with rebound := true } else x
  | .entry _ => x
  | .poll => x

def Line.markRebound (d : Fin 24) (l : Line) : Line := { l with sending := l.sending.map (Sending.markRebound d) }

/-- A drive's binding has changed (R77): the tables hold the new one. -/
def driveRebound (t : Tables) (d : Fin 24) (g : Blocks) : Acts :=
  let x := g.drive d
  let g₁ := { g with lines := ⟨g.lines.forA.markRebound d, g.lines.forB.markRebound d⟩ }
  let g₂ := g₁.setSlu (g₁.slu.setRow (.drive d) (LoadRow.startUp (driveClass t g d)))
  recompute t d none (g₂.setDrive d { x with
    sentKnown := false, pending := false, shed := false, limited := false, granted := 0, handDue := t.bound d,
    unpowered := t.bound d && !g.isOn (t.binds.get d).branch })

/-- A drive's shape has changed (R78): a changed mode clears OVER-MAX, and the drive is recomputed. -/
def driveReshaped (t : Tables) (d : Fin 24) (modeChanged : Bool) (g : Blocks) : Acts :=
  let x := g.drive d
  recompute t d none (g.setDrive d { x with overMax := x.overMax && !modeChanged })

/-- A drive's limits have changed (R79, R111). -/
def driveRelimited (t : Tables) (d : Fin 24) (ratedChanged : Bool) (g : Blocks) : Acts :=
  let x := g.drive d
  recompute t d none (g.setDrive d { x with overMax := false, handDue := x.handDue || (ratedChanged && t.bound d) })

end Sys2Proof.Machine
end

