-- ==== Sys2Proof/Machine/Cues.lean ====
section
/-! DEFINITION. The Cue Scheduler (chapter 7): shows, the draw of a round, the resolution of a slot, clashes, and what becomes of an
occurrence that is sent, collides or is not sent. -/

namespace Sys2Proof.Machine

/-! ## Run states (R120–R123) -/

/-- The branch of a cue: its own for FRAME, its drive's as the binding stands for LEVEL (R124, R126). -/
def cueBranch (t : Tables) (c : Fin 64) : Branch :=
  match (t.cues.get c).action with
  | .level d _ => (t.binds.get d).branch
  | .frame b _ _ => b

/-- Whether a cue is enabled and its show RUNNING. -/
def cueActive (t : Tables) (g : Blocks) (c : Fin 64) : Bool :=
  (t.cues.get c).enabled && g.cues.running.get (t.cues.get c).inShow

/-- An occurrence over: repeat-pending no, postponement count 0. -/
def CueRun.ended (x : CueRun) : CueRun := { x with repeatPending := false, postponed := 0 }

/-- A cue's run state ended in place. -/
def endCue (c : Fin 64) (g : Blocks) : Blocks := g.setCueRun c (g.cueRun c).ended

/-- Each cue of a show changed. -/
def CueUnit.eachOf (u : CueUnit) (t : Tables) (sh : Fin 4) (f : CueConfig → CueRun → CueRun) : CueUnit :=
  { u with runs := Table.build 64 fun c =>
      let k := t.cues.get c
      if k.inShow = sh then f k (u.runs.get c) else u.runs.get c }

/-- SHOW-START (R122). -/
def startShow (t : Tables) (sh : Fin 4) (g : Blocks) : Blocks :=
  let u := g.cues.eachOf t sh fun k x => { x.ended with countdown := k.phase, drawn := false }
  { g with cues := { u with running := u.running.set sh true } }

/-- SHOW-STOP (R123). -/
def stopShow (t : Tables) (sh : Fin 4) (g : Blocks) : Blocks :=
  let u := g.cues.eachOf t sh fun _ x => { x.ended with drawn := false }
  { g with cues := { u with running := u.running.set sh false } }

/-- A resolved occurrence whose cue's entry has been written since (R131). -/
def Resolved.markRewritten (c : Fin 64) (w : Resolved) : Resolved := if w.cue = c then { w with rewritten := true } else w

def Sending.markRewritten (c : Fin 64) (x : Sending) : Sending :=
  match x.source with
  | .cue w => { x with source := .cue (w.markRewritten c) }
  | .entry _ => x
  | .drive _ => x
  | .poll => x

def Line.markRewritten (c : Fin 64) (l : Line) : Line := { l with sending := l.sending.map (Sending.markRewritten c) }

/-- An accepted CUE entry has replaced `old` (R121). -/
def cueWritten (t : Tables) (c : Fin 64) (old : CueConfig) (g : Blocks) : Blocks :=
  let new := t.cues.get c
  if old = new then g
  else { g with
    cues := { g.cues with
      runs := g.cues.runs.set c ⟨new.phase, false, 0, 0, false⟩, resolved := g.cues.resolved.map (Resolved.markRewritten c) }
    lines := ⟨g.lines.forA.markRewritten c, g.lines.forB.markRewritten c⟩ }

/-! ## The draw (R124) -/

/-- One cue's part of a draw; what an earlier draw left unresolved is drawn no more. -/
def CueRun.draw (active : Bool) (period : Nat) (x : CueRun) : CueRun :=
  if active then
    if x.countdown = 0 then { x with countdown := period - 1, drawn := true }
    else { x with countdown := x.countdown - 1, drawn := x.repeatPending }
  else { x with drawn := false }

/-- The next round drawn. -/
def drawRound (t : Tables) (g : Blocks) : Blocks :=
  { g with cues := { g.cues with
      runs := Table.build 64 fun c => (g.cueRun c).draw (cueActive t g c) (t.cues.get c).period } }

/-! ## Clashes and misses (R127, R132–R134) -/

/-- A miss: CUE-MISSED with its cause and the clash count as it stands. -/
def missCue (cause : Nat) (c : Fin 64) (g : Blocks) : Blocks :=
  (endCue c g).post .cueMissed c.val cause (g.cueRun c).clashes

/-- A lost clash: the occurrence is postponed within its tolerance, or missed with the cause given. -/
def loseClash (t : Tables) (cause : Nat) (c : Fin 64) (g : Blocks) : Blocks :=
  let x := g.cueRun c
  let clashes := satInc Config.count8 x.clashes
  if x.postponed + 1 ≤ (t.cues.get c).tolerance then
    (g.setCueRun c { x with clashes := clashes, postponed := x.postponed + 1, repeatPending := true }).post
      .cuePostponed c.val ((x.postponed + 1 : Nat) : Int) clashes
  else missCue cause c (g.setCueRun c { x with clashes := clashes })

/-! ## Resolving a slot (R126–R129) -/

/-- The drawn cues of a slot offset on a branch, in ascending number. -/
def cuesAt (t : Tables) (b : Branch) (o : Fin 40) (g : Blocks) : List (Fin 64) :=
  (indices 64).filter fun c => (g.cueRun c).drawn && decide ((t.cues.get c).slot = o) && decide (cueBranch t c = b)

/-- Whether a cue claims its slot: every FRAME cue, and a LEVEL cue whose bound drive's mode is SHOW. -/
def claims (t : Tables) (c : Fin 64) : Bool :=
  match (t.cues.get c).action with
  | .frame _ _ _ => true
  | .level d _ => t.bound d && decide ((t.shapes.get d).mode = .inShow)

/-- Whether one cue stands above another in a clash: a higher priority, then a lower number. -/
def standsAbove (t : Tables) (c e : Fin 64) : Bool :=
  decide ((t.cues.get e).priority < (t.cues.get c).priority) ||
    (decide ((t.cues.get e).priority = (t.cues.get c).priority) && decide (c < e))

/-- A cue put in its place among cues in order of standing, lowest first. -/
def insertByStanding (t : Tables) (c : Fin 64) : List (Fin 64) → List (Fin 64)
  | [] => [c]
  | x :: xs => if standsAbove t x c then c :: x :: xs else x :: insertByStanding t c xs

/-- Cues in order of standing, lowest first. -/
def byStanding (t : Tables) (cs : List (Fin 64)) : List (Fin 64) := cs.foldr (insertByStanding t) []

/-- The show-level write of a cue (R128). -/
def levelWrite (t : Tables) (c : Fin 64) : List Task :=
  match (t.cues.get c).action with
  | .level d l => [.showWrite d l]
  | .frame _ _ _ => []

/-- What a winner's slot will carry (R128, R129). -/
def cueSend (t : Tables) (c : Fin 64) : CueSend :=
  match (t.cues.get c).action with
  | .level d _ => .drive d
  | .frame _ dest payload => .frame ⟨dest, Config.self, kindCommand, 0, payload⟩

/-- The winner of one slot's resolution replaces any held for that slot. -/
def CueUnit.declare (u : CueUnit) (b : Branch) (o : Fin 40) (winner : Option Resolved) : CueUnit :=
  { u with resolved := (u.resolved.filter fun w => !(decide (w.branch = b) && decide (w.slot = o))) ++ winner.toList }

/-- The cues taken at a resolution are drawn no more. -/
def undraw (cs : List (Fin 64)) (g : Blocks) : Blocks :=
  cs.foldl (fun h c => h.setCueRun c { h.cueRun c with drawn := false }) g

/-- A resolution while the branch is ON: non-claiming cues complete, the claiming cue of highest standing wins, the others lose, and
the levels are written from lowest standing to highest. -/
def resolveClaims (t : Tables) (b : Branch) (o : Fin 40) (live : List (Fin 64)) (g : Blocks) : Acts :=
  let claimers := live.filter (claims t)
  let others := live.filter fun c => !claims t c
  let order := byStanding t claimers
  let winner := order.getLast?
  let losers := claimers.filter fun c => decide (some c ≠ winner)
  let g₁ := others.foldl (fun h c => endCue c h) g
  let g₂ := losers.foldl (fun h c => loseClash t 2 c h) g₁
  ({ g₂ with cues := g₂.cues.declare b o (winner.map fun c => ⟨c, b, o, cueSend t c, false⟩) },
    (others ++ order).flatMap (levelWrite t))

/-- The resolution of slot `o` on branch `b` (R126). On a branch that is not ON the misses are noticed in ascending cue number, which is
the model's choice (notes/assumptions/32.md). -/
def resolveSlot (t : Tables) (b : Branch) (o : Fin 40) (g : Blocks) : Acts :=
  let cs := cuesAt t b o g
  let live := cs.filter (cueActive t g)
  let g₁ := undraw cs g
  if g₁.isOn b then resolveClaims t b o live g₁
  else done (live.foldl (fun h c => missCue 1 c h) { g₁ with cues := g₁.cues.declare b o none })

/-! ## At the slot, and after (R130–R133) -/

/-- The winner held for a slot. -/
def CueUnit.winnerAt (u : CueUnit) (b : Branch) (slot : Nat) : Option Resolved :=
  u.resolved.find? fun w => decide (w.branch = b) && decide (w.slot.val = slot)

/-- Whether slot `slot` of a branch is declared to carry a cue frame (R125). -/
def declaresCue (g : Blocks) (b : Branch) (slot : Nat) : Bool := (g.cues.winnerAt b slot).isSome

/-- A winner's slot has started: it is held no longer. -/
def takeWinner (w : Resolved) (g : Blocks) : Blocks := { g with cues := g.cues.declare w.branch w.slot none }

/-- A cue frame ended with a clean echo (R131). -/
def cueSent (w : Resolved) (g : Blocks) : Blocks := if w.rewritten then g else endCue w.cue g

end Sys2Proof.Machine
end

