-- ==== Sys2Proof/Machine/Operands.lean ====
section
/-! DEFINITION. The forms bytes take on a line: the frame and its check (R1, R2), the receivers (R3), COMMAND payloads (R9), ANSWER
payloads and mower answers (R10, R11), and MANAGE requests (R12). -/

namespace Sys2Proof.Machine

/-! ## The check (R2) -/

/-- One shift of the check register. -/
def crcShift (r : BitVec 16) : BitVec 16 :=
  if r.msb then (r <<< 1) ^^^ 0x1021#16 else r <<< 1

/-- Eight shifts. -/
def crcShift8 (r : BitVec 16) : BitVec 16 :=
  crcShift (crcShift (crcShift (crcShift (crcShift (crcShift (crcShift (crcShift r)))))))

/-- One byte taken into the check register. -/
def crcByte (r : BitVec 16) (x : Byte) : BitVec 16 := crcShift8 (r ^^^ (x ++ 0#8))

/-- The CRC-16 of a run of bytes. -/
def crc16 (bytes : List Byte) : BitVec 16 := bytes.foldl crcByte 0xFFFF#16

/-! ## The frame (R1) -/

/-- The fields the check covers. -/
def Frame.covered (f : Frame) : List Byte :=
  byteOf f.payload.length :: f.dest :: f.source :: (f.kind ++ f.tag) :: f.payload

/-- The bytes of a frame as it is sent. -/
def Frame.encode (f : Frame) : List Byte :=
  Config.startMark :: (f.covered ++ [hiByte (crc16 f.covered), loByte (crc16 f.covered)])

/-! ## The receivers (R3) -/

/-- What a receiver finds. -/
inductive RxEvent where
  | good (f : Frame)
  | startFault
  | overLength
  | checkFault
  deriving DecidableEq, Repr

/-- A whole frame judged, from the bytes after its start mark: a missing stop bit or a check that differs is a check fault. -/
def judgeFrame (got : List RxByte) : RxEvent :=
  let bytes := got.map RxByte.value
  let covered := bytes.take (bytes.length - 2)
  let check := bytes.drop (bytes.length - 2)
  match covered with
  | _ :: dest :: source :: kindTag :: payload =>
    if got.all RxByte.stop && decide (check = [hiByte (crc16 covered), loByte (crc16 covered)]) then
      .good ⟨dest, source, kindTag.extractLsb' 4 4, kindTag.extractLsb' 0 4, payload⟩
    else .checkFault
  | _ => .checkFault

/-- Bytes after the start mark of a frame whose length byte is `n`. -/
def frameBytesAfterMark (n : Byte) : Nat := n.toNat + 6

/-- A receiver takes one byte. -/
def Receiver.take (r : Receiver) (x : RxByte) : Receiver × Option RxEvent :=
  match r with
  | .hunting discarding =>
    if x.value = Config.startMark then (.assembling [], if discarding then some .startFault else none)
    else (.hunting true, none)
  | .assembling [] =>
    if Config.maxPayload < x.value.toNat then (.hunting false, some .overLength) else (.assembling [x], none)
  | .assembling (n :: got) =>
    let all := n :: got ++ [x]
    if all.length = frameBytesAfterMark n.value then (.hunting false, some (judgeFrame all)) else (.assembling all, none)

/-- A receiver takes a run of bytes; what it finds, in order. -/
def Receiver.takeAll (r : Receiver) : List RxByte → Receiver × List RxEvent
  | [] => (r, [])
  | x :: xs =>
    let (r', e) := r.take x
    let (r'', es) := r'.takeAll xs
    (r'', e.toList ++ es)

/-- 250 ms pass at the trunk receiver without a byte: an incomplete frame is a check fault, and a run of discarded bytes ends as a
start fault. -/
def Receiver.silence : Receiver → Option RxEvent
  | .hunting true => some .startFault
  | .hunting false => none
  | .assembling _ => some .checkFault

/-- What a branch receiver hears in one slot. -/
inductive Heard where
  | silent
  | good (f : Frame)
  | fault
  deriving DecidableEq, Repr

/-- A fault or a good frame, as a slot's hearing. -/
def RxEvent.heard : RxEvent → Heard
  | .good f => .good f
  | .startFault => .fault
  | .overLength => .fault
  | .checkFault => .fault

/-- The bytes of one slot judged: the receiver starts HUNTING, the first thing found counts, and a frame or a run of discarded bytes
that the slot's end cuts is a fault. -/
def hearSlot (bytes : List RxByte) : Heard :=
  match (Receiver.hunting false).takeAll bytes with
  | (_, e :: _) => e.heard
  | (r, []) => match r.silence with
    | some e => e.heard
    | none => .silent

/-- The echo of a frame is clean when every byte sent came back equal, with its stop bit (R35). Bytes heard beyond those sent make it a
collision, which is the model's choice (notes/assumptions/44.md). -/
def echoClean (f : Frame) (echo : List RxByte) : Bool := decide (echo = f.encode.map fun x => ⟨x, true⟩)

/-! ## Addresses (R4) -/

def isNodeAddress (a : Byte) : Bool := decide (1 ≤ a.toNat) && decide (a.toNat ≤ 111)

/-- A destination that several nodes take: 0 or a group. -/
def isShared (a : Byte) : Bool := decide (a = Config.allCall) || (decide (112 ≤ a.toNat) && decide (a.toNat ≤ 125))

/-! ## COMMAND payloads (R9) -/

/-- What a COMMAND or COMMAND-ACK payload says. -/
inductive CommandForm where
  | malformed
  | setLevel (output level : Nat)
  | mowerGo
  | mowerHome
  | charge
  | other
  deriving DecidableEq, Repr

/-- A COMMAND or COMMAND-ACK payload read. -/
def commandForm (kind : BitVec 4) : List Byte → CommandForm
  | [] => .malformed
  | code :: rest =>
    if code = 1 then
      match rest with
      | [o, l] => if kind = kindCommand ∧ o.toNat ≤ 3 then .setLevel o.toNat l.toNat else .malformed
      | _ => .malformed
    else if code = 2 then
      match rest with
      | [z, t] => if kind = kindCommandAck ∧ z.toNat ≤ 31 ∧ 1 ≤ t.toNat ∧ t.toNat ≤ 240 then .mowerGo else .malformed
      | _ => .malformed
    else if code = 3 then
      match rest with
      | [] => if kind = kindCommandAck then .mowerHome else .malformed
      | _ => .malformed
    else if code = 4 then
      match rest with
      | [x] => if kind = kindCommandAck ∧ x.toNat ≤ 1 then .charge else .malformed
      | _ => .malformed
    else .other

/-- The part's own command payloads (R9). -/
def setLevelPayload (output level : Nat) : List Byte := [1, byteOf output, byteOf level]
def mowerGoPayload (zone : Fin 32) (stint : Nat) : List Byte := [2, byteOf zone.val, byteOf stint]
def mowerHomePayload : List Byte := [3]
def chargePayload (on : Bool) : List Byte := [4, if on then 1 else 0]

/-- SET-LEVEL for a drive (R8). -/
def setLevelFrame (bind : DriveBind) (level : Nat) : Frame :=
  ⟨bind.dest, Config.self, kindCommand, 0, setLevelPayload bind.output level⟩

/-! ## ANSWER payloads (R10, R11) -/

/-- The signed two-byte values after the status byte. -/
def answerValues : List Byte → List Int
  | hi :: lo :: rest => (word16 hi lo).toInt :: answerValues rest
  | _ => []

/-- Whether an ANSWER payload is well formed: an odd length from 1 to 23. -/
def answerWellFormed (payload : List Byte) : Bool :=
  decide (payload.length % 2 = 1) && decide (payload.length ≤ 23)

/-- The status byte of an answer. -/
def answerStatus (f : Frame) : Byte := f.payload.headD 0

/-- The values of an answer. -/
def frameValues (f : Frame) : List Int := answerValues f.payload.tail

/-- The mode a mower answers with. -/
def mowerModeOf (v : Int) : Option MowerMode :=
  if v = 0 then some .docked else if v = 1 then some .driving else if v = 2 then some .cutting
  else if v = 3 then some .fault else none

/-- A mower answer's mode, zone and battery, where the answer is usable (R11). -/
def usableMowerAnswer (f : Frame) : Option (MowerMode × Nat × Nat) :=
  match frameValues f with
  | mode :: zone :: battery :: _ :: _ =>
    match mowerModeOf mode with
    | some m =>
      if ((0 ≤ zone ∧ zone ≤ 31) ∨ zone = 255) ∧ 0 ≤ battery ∧ battery ≤ 100 then some (m, zone.toNat, battery.toNat)
      else none
    | none => none
  | _ => none

/-! ## MANAGE requests (R12) -/

/-- The request a MANAGE frame carries; none when its payload is shorter than four bytes. -/
def requestOf (e : FifoEntry) : Option Request :=
  match e.frame.payload with
  | code :: table :: first :: count :: data =>
    some ⟨e.frame.source, e.frame.tag, code.toNat, table.toNat, first.toNat, count.toNat, data, e.island⟩
  | _ => none

end Sys2Proof.Machine
end

