-- ==== Sys2Proof/Machine/Lines.lean ====
section
/-! DEFINITION. The Branch Line Controllers (chapter 2): the send queue, the slot arbiter, exchanges, polling, presence, collisions,
unsolicited frames, and the branch while not ON. -/

namespace Sys2Proof.Machine

/-! ## The send queue (R20–R23) -/

def Blocks.setQueue (g : Blocks) (b : Branch) (q : List QueueEntry) : Blocks := g.setLine b { g.line b with queue := q }

/-- QUEUE-FULL is posted, with 1 for the send queue or 2 for the poll-now list and the destination dropped, and queue-full-seen is
set (R21, R31, R184). -/
def noteQueueFull (b : Branch) (place : Nat) (dest : Byte) (g : Blocks) : Blocks :=
  (g.setLine b { g.line b with queueFullSeen := true }).post .queueFull b.code place dest.toNat

/-- A frame joins the send queue behind every entry held. -/
def enqueue (b : Branch) (f : Frame) (urgent : Bool) (o : Origin) (g : Blocks) : Blocks :=
  let l := g.line b
  g.setLine b { l with queue := l.queue ++ [⟨f, urgent, o, l.nextArrival, false⟩], nextArrival := l.nextArrival + 1 }

/-- A trunk frame offered to a branch (R21). -/
def queueTrunk (b : Branch) (f : Frame) (g : Blocks) : Blocks :=
  if g.isOn b then
    if Config.sendQueuePlaces ≤ (g.line b).queue.length then noteQueueFull b 1 f.dest g else enqueue b f false .trunk g
  else g

/-- The payload of a mower command. -/
inductive MowerRequest where
  | go (zone : Fin 32) (stint : Nat)
  | home
  | charge (on : Bool)
  deriving DecidableEq, Repr

def MowerRequest.command : MowerRequest → MowerCommand
  | .go _ _ => .go
  | .home => .home
  | .charge _ => .charge

def MowerRequest.payload : MowerRequest → List Byte
  | .go z n => mowerGoPayload z n
  | .home => mowerHomePayload
  | .charge on => chargePayload on

/-- Where a mower command goes (R156). -/
def MowerRequest.dest (k : MowerConfig) : MowerRequest → Byte
  | .go _ _ => k.node
  | .home => k.node
  | .charge _ => k.dock

/-- MOWER-HOME is URGENT (R22). -/
def MowerRequest.urgent : MowerRequest → Bool
  | .go _ _ => false
  | .home => true
  | .charge _ => false

/-- The Mower Dispatcher's command offered to its branch: queued, or refused at once with an outcome (R22). The tag is put in when
its exchange starts (R28). -/
def queueCommand (t : Tables) (m : Fin 4) (r : MowerRequest) (g : Blocks) : Blocks × Option CommandOutcome :=
  let k := t.mowers.get m
  if g.isOn k.branch then
    if Config.sendQueuePlaces ≤ (g.line k.branch).queue.length then (g, some .notQueued)
    else (enqueue k.branch ⟨r.dest k, Config.self, kindCommandAck, 0, r.payload⟩ r.urgent (.mower m r.command) g, none)
  else (g, some .failed)

/-- Whether an entry's exchange has started. -/
def Line.inExchange (l : Line) (e : QueueEntry) : Bool :=
  match l.exchange with
  | some x => decide (x.origin = .entry e.arrival e.origin)
  | none => false

/-- The answers to a withdrawal (R23); WITHDRAWN with the arrival number of the entry removed. -/
inductive Withdrawal where
  | withdrawn (arrival : Nat)
  | inExchange
  | noEntry
  deriving DecidableEq, Repr

/-- A queued mower command is withdrawn where an entry waits, the oldest one (R23). -/
def withdraw (b : Branch) (m : Fin 4) (c : MowerCommand) (g : Blocks) : Blocks × Withdrawal :=
  let l := g.line b
  let own := fun (e : QueueEntry) => decide (e.origin = .mower m c)
  match l.queue.find? fun e => own e && !l.inExchange e with
  | some e => (g.setQueue b (l.queue.filter fun x => decide (x.arrival ≠ e.arrival)), .withdrawn e.arrival)
  | none => (g, if l.queue.any fun e => own e && l.inExchange e then .inExchange else .noEntry)

/-- The entry of an arrival number leaves the queue. -/
def dropEntry (b : Branch) (arrival : Nat) (g : Blocks) : Blocks :=
  g.setQueue b ((g.line b).queue.filter fun e => decide (e.arrival ≠ arrival))

/-- The oldest entry is first; a COMMAND-ACK needs the next slot free, and no entry passes an older one to its destination (R25). -/
def firstFitting (twoSlots : Bool) (urgent : Bool) (older : List Byte) : List QueueEntry → Option QueueEntry
  | [] => none
  | e :: es =>
    if decide (e.urgent = urgent) && !(older.contains e.frame.dest) && (twoSlots || decide (e.frame.kind ≠ kindCommandAck)) then
      some e
    else firstFitting twoSlots urgent (e.frame.dest :: older) es

/-! ## The slot arbiter (R24–R28) -/

/-- The frame starts on the line. -/
def startSending (b : Branch) (slot : Fin 50) (f : Frame) (source : SendSource) (level : Nat) (g : Blocks) : Blocks :=
  g.setLine b { g.line b with sending := some ⟨f, slot, source, level, false⟩, sentIn := some slot }

/-- SET-LEVEL for a drive, at its granted level as it stands (R26, R98). -/
def sendDrive (t : Tables) (b : Branch) (slot : Fin 50) (d : Fin 24) (source : SendSource) (g : Blocks) : Blocks :=
  startSending b slot (setLevelFrame (t.binds.get d) (g.drive d).granted) source (g.drive d).granted g

/-- An entry given a slot: a COMMAND is sent, a COMMAND-ACK opens an exchange, an MD entry taking the tag counter (R27, R28). -/
def sendEntry (b : Branch) (slot : Fin 50) (e : QueueEntry) (g : Blocks) : Blocks :=
  let l := g.line b
  if e.frame.kind = kindCommandAck then
    let tag := if e.origin = .trunk then e.frame.tag else l.tag
    let l' := { l with
      tag := if e.origin = .trunk then l.tag else l.tag + 1
      exchange := some ⟨e.frame.dest, tag, .entry e.arrival e.origin, slot + 1⟩ }
    startSending b slot { e.frame with tag := tag } (.entry e.arrival) 0 (g.setLine b l')
  else startSending b slot e.frame (.entry e.arrival) 0 g

/-- The classes in the order drive updates are sent (R26). -/
def sendClasses : List LoadClass := [.safety, .water, .showLoad, .ambient]

/-- The drive numbers after one, counting upward and wrapping, that one last. -/
def drivesAfter (last : Fin 24) : List (Fin 24) := (indices 24).map fun i => last + 1 + i

/-- The pending drive of a branch to be sent next (R26). -/
def nextDrive (t : Tables) (b : Branch) (g : Blocks) : Option (Fin 24) :=
  (sendClasses.flatMap fun k => (drivesAfter (g.line b).lastServed).filter fun d => decide (driveClass t g d = k)).find?
    fun d => t.loadOn b (.drive d) && (g.drive d).pending

/-- A cue's slot started while its branch is not ON (R133). -/
def winnerNotSent (w : Resolved) (g : Blocks) : Blocks := missCue 3 w.cue g

/-- The winner sent in its slot, or `none` where a LEVEL cue has nothing to send there (R130, R131). -/
def sendWinner (t : Tables) (b : Branch) (slot : Fin 50) (w : Resolved) (g : Blocks) : Option Blocks :=
  match w.send with
  | .frame f => some (startSending b slot f (.cue w) 0 g)
  | .drive d => if t.loadOn b (.drive d) then some (sendDrive t b slot d (.cue w) g) else none

/-- The arbiter's sources after the cue: URGENT, drive update, NORMAL, nothing (R24). -/
def arbitrate (t : Tables) (b : Branch) (slot : Fin 50) (g : Blocks) : Blocks :=
  let q := (g.line b).queue
  let twoSlots := decide (slot.val < 39) && !declaresCue g b (slot.val + 1)
  match firstFitting twoSlots true [] q with
  | some e => sendEntry b slot e g
  | none =>
    match nextDrive t b g with
    | some d => sendDrive t b slot d (.drive d) (g.setLine b { g.line b with lastServed := d })
    | none =>
      match firstFitting twoSlots false [] q with
      | some e => sendEntry b slot e g
      | none => g

/-- Whether a slot can be given to a frame: nothing is on the line, and it is not an answer slot, not kept idle, and not used (R17,
R19, R28). -/
def Line.slotFree (l : Line) (slot : Fin 50) : Bool :=
  l.exchange.isNone && l.sending.isNone && decide (l.idleIn ≠ some slot) && decide (l.answeredIn ≠ some slot) &&
    decide (l.sentIn ≠ some slot)

/-- A general slot starts (R24, R130, R131, R133). A winner whose branch is not ON is missed, also where its LEVEL cue would have had nothing
to send, which is the model's choice (notes/assumptions/43.md). -/
def generalSlot (t : Tables) (b : Branch) (slot : Fin 50) (g : Blocks) : Blocks :=
  match g.cues.winnerAt b slot.val with
  | some w =>
    let g' := takeWinner w g
    if g'.isOn b then
      if (g'.line b).slotFree slot then
        match sendWinner t b slot w g' with
        | some h => h
        | none => arbitrate t b slot (endCue w.cue g')
      else g
    else winnerNotSent w g'
  | none => if g.isOn b && (g.line b).slotFree slot then arbitrate t b slot g else g

/-! ## Polling (R30–R32) -/

/-- A trunk POLL for a branch's poll-now list (R31). -/
def joinPollNow (b : Branch) (p : PollNow) (g : Blocks) : Blocks :=
  if g.isOn b then
    if Config.pollNowPlaces ≤ (g.line b).pollNow.length then noteQueueFull b 2 p.dest g
    else g.setLine b { g.line b with pollNow := (g.line b).pollNow ++ [p] }
  else g

/-- The due entry most overdue, ties to the lower index (R32). -/
def mostOverdue (now : Round) (polls : Table PollRun 32) : List (Fin 32) → Option (Fin 32)
  | [] => none
  | i :: is =>
    match mostOverdue now polls is with
    | none => some i
    | some j => if (polls.get i).nextDue.overdue now < (polls.get j).nextDue.overdue now then some j else some i

/-- The entries that are due (R30). -/
def dueEntries (t : Tables) (now : Round) (b : Branch) (l : Line) : List (Fin 32) :=
  (indices 32).filter fun i => decide (((t.polls.get b).get i).node ≠ 0) && (l.polls.get i).nextDue.reached now

/-- The frame of a poll-now entry, as the trunk POLL was received (R8, R32). -/
def PollNow.frame (p : PollNow) : Frame := ⟨p.dest, p.source, kindPoll, p.tag, p.payload⟩

/-- The POLL of a poll-table entry (R8). -/
def tablePoll (node : Byte) (tag : BitVec 4) : Frame := ⟨node, Config.self, kindPoll, tag, []⟩

/-- A POLL sent opens an exchange with the pair's answer slot (R28). -/
def sendPoll (b : Branch) (slot : Fin 50) (f : Frame) (o : ExchangeOrigin) (g : Blocks) : Blocks :=
  startSending b slot f .poll 0 (g.setLine b { g.line b with exchange := some ⟨f.dest, f.tag, o, slot + 1⟩ })

/-- A poll slot starts (R32). -/
def pollSlot (t : Tables) (now : Round) (b : Branch) (slot : Fin 50) (g : Blocks) : Blocks :=
  let l := g.line b
  if g.isOn b && l.slotFree slot then
    match l.pollNow with
    | p :: ps => sendPoll b slot p.frame .pollNow (g.setLine b { l with pollNow := ps })
    | [] =>
      match mostOverdue now l.polls (dueEntries t now b l) with
      | some i =>
        let k := (t.polls.get b).get i
        let run := { l.polls.get i with nextDue := StoredRound.after now k.interval }
        sendPoll b slot (tablePoll k.node l.tag) .pollTable (g.setLine b { l with polls := l.polls.set i run, tag := l.tag + 1 })
      | none => g
  else g

/-! ## Answers, misses and presence (R33, R34) -/

/-- What an answer slot is judged as (R33). -/
inductive Judgement where
  | answer (f : Frame)
  | missing
  | mismatched
  | garbled
  deriving DecidableEq, Repr

/-- What was heard, judged against the exchange in flight. -/
def judge (x : Exchange) : Heard → Judgement
  | .silent => .missing
  | .fault => .garbled
  | .good f =>
    if f.kind = kindAnswer ∧ answerWellFormed f.payload = false then .garbled
    else if f.kind = kindAnswer ∧ f.source = x.dest ∧ f.tag = x.tag then .answer f
    else .mismatched

def Judgement.isAnswer : Judgement → Bool
  | .answer _ => true
  | .missing => false
  | .mismatched => false
  | .garbled => false

/-- A presence record after a judged answer slot (R34). -/
def PollRun.judged (x : PollRun) (j : Judgement) : PollRun :=
  if j.isAnswer then { x with presence := .present, misses := 0 }
  else
    { x with
      misses := satInc Config.count8 x.misses
      presence := if x.presence ≠ .absent ∧ Config.missesToAbsent ≤ x.misses + 1 then .absent else x.presence
      garbles := if j = .garbled then satInc Config.count16 x.garbles else x.garbles }

/-- The first poll-table entry holding an address. -/
def entryFor (t : Tables) (b : Branch) (node : Byte) : Option (Fin 32) :=
  (indices 32).find? fun i => decide (((t.polls.get b).get i).node = node)

/-- The notice of a presence change, with the consecutive misses before it (R34, R184). -/
def postPresence (b : Branch) (node : Byte) (was : PollRun) (is : Presence) (g : Blocks) : Blocks :=
  match is with
  | .absent => g.post .nodeAbsent node.toNat b.code 0
  | .present => if was.presence = .absent then g.post .nodePresent node.toNat b.code was.misses else g
  | .unknown => g

/-- Every record of an exchange's destination moves; a change posts one notice and is handed on once (R34). That the notice is posted
before what the Measurement Unit and the Mower Dispatcher post is the model's choice (notes/assumptions/39.md). -/
def updatePresence (t : Tables) (b : Branch) (node : Byte) (j : Judgement) (g : Blocks) : Acts :=
  match entryFor t b node with
  | none => done g
  | some i =>
    let l := g.line b
    let polls := Table.build 32 fun n =>
      if ((t.polls.get b).get n).node = node then (l.polls.get n).judged j else l.polls.get n
    let was := l.polls.get i
    let is := (polls.get i).presence
    let g' := g.setLine b { l with polls := polls }
    if was.presence = is then done g' else (postPresence b node was is g', [.presence b node is])

/-- The outcome an MD entry receives (R29). -/
def Judgement.outcome : Judgement → CommandOutcome
  | .answer f => if answerStatus f = 0 then .accepted else .refused
  | .missing => .noAnswer
  | .mismatched => .noAnswer
  | .garbled => .noAnswer

/-- The outcome to the Mower Dispatcher, where the exchange was its own. -/
def outcomeTasks (b : Branch) (o : ExchangeOrigin) (c : CommandOutcome) : List Task :=
  match o with
  | .entry n (.mower m k) => [.outcome m ⟨k, b, n⟩ c]
  | .entry _ .trunk => []
  | .pollTable => []
  | .pollNow => []

/-- The mark an answer goes to the Frame Router with (R53). -/
def ExchangeOrigin.mark : ExchangeOrigin → AnswerMark
  | .entry _ .trunk => .forwardedCommand
  | .entry _ (.mower _ _) => .ordinary
  | .pollTable => .ordinary
  | .pollNow => .trunkPoll

def answerTasks (b : Branch) (o : ExchangeOrigin) : Judgement → List Task
  | .answer f => [.answer b o.mark f]
  | .missing => []
  | .mismatched => []
  | .garbled => []

/-- The exchange's entry leaves the queue. -/
def dropExchanged (b : Branch) (o : ExchangeOrigin) (g : Blocks) : Blocks :=
  match o with
  | .entry n _ => dropEntry b n g
  | .pollTable => g
  | .pollNow => g

/-- The exchange is over, its result handed on: its entry leaves the queue, and its record is cleared (R29). -/
def endExchange (b : Branch) (g : Blocks) : Blocks :=
  match (g.line b).exchange with
  | some x => dropExchanged b x.origin (g.setLine b { g.line b with exchange := none })
  | none => g

/-- The answer slot is judged: presence, the outcome and the answer are handed on in this order, and then the exchange ends
(R29, R33; notes/assumptions/12.md). -/
def judgeAnswerSlot (t : Tables) (b : Branch) (heard : List RxByte) (g : Blocks) : Acts :=
  let l := g.line b
  match l.exchange with
  | none => done g
  | some x =>
    if l.sending.isSome then done g
    else
      let j := judge x (hearSlot heard)
      (updatePresence t b x.dest j (g.setLine b { l with answeredIn := some x.answerSlot })).hand
        (outcomeTasks b x.origin j.outcome ++ answerTasks b x.origin j ++ [.exchangeEnd b])

/-! ## Echoes, collisions and unsolicited frames (R35–R37) -/

/-- A frame that ended with a clean echo. -/
def cleanEcho (t : Tables) (b : Branch) (x : Sending) (g : Blocks) : Blocks :=
  match x.source with
  | .entry n => if (g.line b).exchange.isSome then g else dropEntry b n g
  | .drive d => if x.rebound then g else driveSent t d x.level g
  | .cue w =>
    match w.send with
    | .drive d => if x.rebound then cueSent w g else driveSent t d x.level (cueSent w g)
    | .frame _ => cueSent w g
  | .poll => g

/-- The collision count rises and COLLISION is posted, with the slot and the kind of the frame sent (R35, R184). -/
def noteCollision (b : Branch) (x : Sending) (g : Blocks) : Blocks :=
  (g.setLine b { g.line b with collisions := satInc Config.count16 (g.line b).collisions }).post
    .collision b.code x.slot.val x.frame.kind.toNat

/-- A collided COMMAND-ACK's exchange ends, and the next slot is kept idle (R28). -/
def cutExchange (b : Branch) (slot : Fin 50) (g : Blocks) : Blocks :=
  if (g.line b).exchange.isSome then g.setLine b { g.line b with exchange := none, idleIn := some (slot + 1) } else g

/-- An entry returned to the head with collided once set. -/
def returnEntry (b : Branch) (e : QueueEntry) (g : Blocks) : Blocks :=
  g.setQueue b ({ e with collided := true } :: (g.line b).queue.filter fun x => decide (x.arrival ≠ e.arrival))

/-- A send-queue entry that collided: back to the head, or dropped at its second collision (R36). -/
def collidedEntry (b : Branch) (slot : Fin 50) (n : Nat) (g : Blocks) : Acts :=
  let g' := cutExchange b slot g
  match (g'.line b).queue.find? fun e => decide (e.arrival = n) with
  | none => done g'
  | some e =>
    if e.collided then (dropEntry b n g', outcomeTasks b (.entry n e.origin) .failed)
    else done (returnEntry b e g')

/-- A frame that collided (R36, R132). -/
def collidedEcho (t : Tables) (b : Branch) (x : Sending) (g : Blocks) : Acts :=
  let g' := noteCollision b x g
  match x.source with
  | .entry n => collidedEntry b x.slot n g'
  | .drive _ => done g'
  | .cue w => done (loseClash t 4 w.cue g')
  | .poll => done g'

/-- The frame a branch is sending ends, and its echo is judged (R35). -/
def judgeEcho (t : Tables) (b : Branch) (echo : List RxByte) (g : Blocks) : Acts :=
  let l := g.line b
  match l.sending with
  | none => done g
  | some x =>
    let g' := g.setLine b { l with sending := none }
    if echoClean x.frame echo then done (cleanEcho t b x g') else collidedEcho t b x g'

/-- Whether what is heard in a slot counts as unsolicited (R37). -/
def Line.unsolicitedIn (l : Line) (slot : Fin 50) : Bool :=
  decide (l.sentIn ≠ some slot) && decide (l.answeredIn ≠ some slot) && decide (l.idleIn ≠ some slot) &&
    (match l.exchange with
      | some x => decide (x.answerSlot ≠ slot)
      | none => true)

/-- Bytes heard in a slot that is not one of the part's or an answer slot (R37). -/
def hearUnsolicited (b : Branch) (slot : Fin 50) (heard : List RxByte) (g : Blocks) : Blocks :=
  let l := g.line b
  if l.unsolicitedIn slot = true ∧ hearSlot heard ≠ .silent then
    g.setLine b { l with unsolicited := satInc Config.count16 l.unsolicited }
  else g

/-! ## Leaving ON (R38) -/

/-- A frame abandoned on the line. -/
def abandonFrame (b : Branch) (g : Blocks) : Blocks :=
  match (g.line b).sending with
  | none => g
  | some x =>
    let g' := g.setLine b { g.line b with sending := none }
    match x.source with
    | .cue w => winnerNotSent w g'
    | .entry _ => g'
    | .drive _ => g'
    | .poll => g'

/-- An entry put in its place among entries in arrival order. -/
def insertByArrival (e : QueueEntry) : List QueueEntry → List QueueEntry
  | [] => [e]
  | x :: xs => if e.arrival ≤ x.arrival then e :: x :: xs else x :: insertByArrival e xs

/-- The entries of the queue but for the one whose exchange is in flight, in arrival order. -/
def Line.waiting (l : Line) : List QueueEntry := (l.queue.filter fun e => !l.inExchange e).foldr insertByArrival []

/-- What the Mower Dispatcher is handed when a branch leaves ON: the exchange cut, then its waiting entries, all FAILED. -/
def failedTasks (b : Branch) (l : Line) : List Task :=
  (match l.exchange with
    | some x => outcomeTasks b x.origin .failed
    | none => []) ++ l.waiting.flatMap fun e => outcomeTasks b (.entry e.arrival e.origin) .failed

/-- The addresses whose presence changes to ABSENT, each once, in the order of the poll-table entries that hold them, which is the model's
choice (R34, R38, R66; notes/assumptions/39.md). -/
def lostNodes (t : Tables) (b : Branch) (l : Line) : List Byte :=
  (((indices 32).filter fun i => decide ((l.polls.get i).presence ≠ .absent) && decide (((t.polls.get b).get i).node ≠ 0)).map
    fun i => ((t.polls.get b).get i).node).eraseDups

/-- A branch has left ON (R38). -/
def lineOff (t : Tables) (b : Branch) (g : Blocks) : Acts :=
  let g₁ := abandonFrame b g
  let l := g₁.line b
  let l' := { l with
    exchange := none, queue := [], pollNow := [], polls := l.polls.map fun x => { x with presence := .absent } }
  (g₁.setLine b l', failedTasks b l ++ (lostNodes t b l).map fun a => .presence b a .absent)

/-! ## Accepted writes (R30) -/

/-- Another entry of a poll table holding an address. -/
def otherEntryFor (t : Tables) (b : Branch) (i : Fin 32) (node : Byte) : Option (Fin 32) :=
  (indices 32).find? fun n => decide (n ≠ i) && decide (((t.polls.get b).get n).node = node)

/-- The run fields of an entry given a new address. -/
def freshPoll (t : Tables) (now : Round) (b : Branch) (i : Fin 32) (node : Byte) (l : Line) : PollRun :=
  let due : StoredRound := ⟨now, false⟩
  match (if node = 0 then none else otherEntryFor t b i node) with
  | some n => { l.polls.get n with nextDue := due }
  | none => ⟨due, .unknown, 0, 0⟩

/-- An accepted POLL-A or POLL-B entry has replaced one of address `old` (R30). -/
def pollWritten (t : Tables) (now : Round) (b : Branch) (i : Fin 32) (old : Byte) (g : Blocks) : Acts :=
  let node := ((t.polls.get b).get i).node
  let l := g.line b
  if node = old then done g
  else
    (g.setLine b { l with polls := l.polls.set i (freshPoll t now b i node l) },
      if old = 0 ∨ (otherEntryFor t b i old).isSome then [] else [.unpolled b old])

end Sys2Proof.Machine
end

