-- ==== Sys2Proof/Machine/Channels.lean ====
section
/-! DEFINITION. The Measurement Unit (chapter 4): how a channel takes values, grows old, goes stale, is emptied and re-evaluated, and
the channel reports it issues. -/

namespace Sys2Proof.Machine

/-- The channel report of a record as it stands (R73). -/
def reportOf (c : Fin 16) (x : Channel) (cause : ReportCause) : ChannelReport := ⟨c, x.value, x.state, x.live, cause⟩

/-- A channel takes a new value (R63). Its CHANNEL-FLAG notices are posted before its report is taken, which is the model's choice
(notes/assumptions/39.md). -/
def takeValue (t : Tables) (c : Fin 16) (v : Int) (g : Blocks) : Acts :=
  let x := g.channel c
  let live := evaluateFlags (t.channels.get c) v x.live
  let x' := { x with value := v, rounds := 0, state := .fresh, live := live, latched := x.latched.latch live }
  (postFlags c v x.live live (g.setChannel c x'), [.report (reportOf c x' .newValue)])

/-- A FRESH channel becomes STALE, and others are unchanged (R65–R67). -/
def makeStale (c : Fin 16) (g : Blocks) : Acts :=
  let x := g.channel c
  if x.state = .fresh then
    let x' := { x with state := .stale }
    (g.setChannel c x', [.report (reportOf c x' .stale)])
  else done g

/-- A bound channel's number among the sixteen. -/
def boundChannel (c : Fin 12) : Fin 16 := ⟨c.val, by omega⟩

/-- An internal channel's number among the sixteen (R58). -/
def internalChannel (c : Fin 4) : Fin 16 := ⟨12 + c.val, by omega⟩

/-- A round start reaches a bound channel (R65). -/
def ageChannel (t : Tables) (c : Fin 12) (g : Blocks) : Acts :=
  let i := boundChannel c
  let x := g.channel i
  if x.state = .empty then done g
  else
    let g' := g.setChannel i { x with rounds := satInc Config.count16 x.rounds }
    if (t.channels.get i).staleLimit ≤ satInc Config.count16 x.rounds then makeStale i g' else done g'

/-- The enabled bound channels on a node of a branch. -/
def channelsOn (t : Tables) (b : Branch) (node : Option Byte) : List (Fin 16) :=
  ((indices 12).map boundChannel).filter fun c =>
    let k := t.channels.get c
    k.enabled && decide (k.branch = b) && (match node with
      | some a => decide (k.node = a)
      | none => true)

/-- Channels that go STALE in one event: each with its report whole before the next, as section 5.7 works it out; in ascending
number, which is the model's choice (notes/assumptions/39.md). -/
def staleTasks (t : Tables) (b : Branch) (node : Option Byte) : List Task := (channelsOn t b node).map Task.goStale

/-- The channels that take a value from an answer, each with its value (R62), in ascending number, which is the model's choice
(notes/assumptions/39.md). -/
def valuesFor (t : Tables) (b : Branch) (node : Byte) (values : List Int) : List (Fin 16 × Int) :=
  (channelsOn t b (some node)).filterMap fun c =>
    (values[(t.channels.get c).valueIndex]?).map fun v => (c, v)

/-- A binding write puts a channel into EMPTY (R60). -/
def emptyChannel (c : Fin 16) (g : Blocks) : Acts :=
  let x := g.channel c
  let x' : Channel := ⟨0, .empty, Flags.clear, Flags.clear, 0, none⟩
  (postFlags c x.value x.live Flags.clear (g.setChannel c x'), [.report (reportOf c x' .emptied)])

/-- A threshold or hysteresis write reaches a channel (R69); its notices come before its report, as in `takeValue`. -/
def reevaluate (t : Tables) (c : Fin 16) (g : Blocks) : Acts :=
  let x := g.channel c
  if x.state = .fresh then
    let live := evaluateFlags (t.channels.get c) x.value x.live
    if live = x.live then done g
    else
      let x' := { x with live := live, latched := x.latched.latch live }
      (postFlags c x.value x.live live (g.setChannel c x'), [.report (reportOf c x' .flags)])
  else done g

/-- CLEAR-LATCHED on one channel (R72). -/
def clearLatched (c : Fin 16) (g : Blocks) : Blocks := g.setChannel c { g.channel c with latched := (g.channel c).live }

/-- Whether two entries give a channel the same binding (R59). -/
def ChannelConfig.sameBinding (x y : ChannelConfig) : Bool :=
  decide (x.enabled = y.enabled ∧ x.branch = y.branch ∧ x.node = y.node ∧ x.valueIndex = y.valueIndex)

/-- Whether two entries give a channel the same thresholds and hysteresis (R69). -/
def ChannelConfig.sameThresholds (x y : ChannelConfig) : Bool :=
  decide (x.highAlarm = y.highAlarm ∧ x.highWarn = y.highWarn ∧ x.lowWarn = y.lowWarn ∧ x.lowAlarm = y.lowAlarm ∧
    x.hysteresis = y.hysteresis)

/-- An accepted CHANNEL entry has replaced `old` (R59, R60, R69). -/
def channelWritten (t : Tables) (c : Fin 16) (old : ChannelConfig) (g : Blocks) : Acts :=
  let new := t.channels.get c
  if old.sameBinding new then (if old.sameThresholds new then done g else reevaluate t c g) else emptyChannel c g

/-- A value held within bounds. -/
def clampInt (lo hi v : Int) : Int := max lo (min hi v)

/-- What an internal channel reads, held within its range; a branch current reads the sense offset, at most 3, while the switch is
open (R58, R64). -/
def sampleReading (g : Blocks) (c : Fin 4) (x : Samples) : Int :=
  if c = 0 then (if g.isOn .branchA then min 3000 x.currentA else min 3 x.currentA : Nat)
  else if c = 1 then (if g.isOn .branchB then min 3000 x.currentB else min 3 x.currentB : Nat)
  else if c = 2 then (min 400 x.supply : Nat)
  else clampInt (-40) 150 x.temperature

/-- The four samples of a round start (R64). -/
def sampleTasks (g : Blocks) (x : Samples) : List Task := (indices 4).map fun c => Task.sample c (sampleReading g c x)

end Sys2Proof.Machine
end

