-- ==== Sys2Proof/Machine/Zones.lean ====
section
/-! DEFINITION. The Zone Unit (chapter 8): the five vetoes and their arrivals, occupancy, transit zones, and the lighting of paths. -/

namespace Sys2Proof.Machine

/-! ## Arrivals (R144) -/

def ZoneUnit.zone (u : ZoneUnit) (z : Fin 32) : Zone := u.zones.get z

/-- Every zone changed. -/
def ZoneUnit.mapZones (u : ZoneUnit) (f : Fin 32 → Zone → Zone) : ZoneUnit :=
  { u with zones := Table.build 32 fun z => f z (u.zone z) }

/-- The reasons that enter a zone's veto set, in the order they are reported. -/
def arrivals (before after : Zone) : List Veto := allVetoes.filter fun v => !before.holds v && after.holds v

/-- Whether a mower is an occupant of a zone. -/
def Zone.occupiedBy (z : Zone) (m : Fin 4) : Bool := z.occupants.getLsbD m.val

/-- The occupants of a zone, in ascending number. -/
def Zone.mowersIn (z : Zone) : List (Fin 4) := (indices 4).filter z.occupiedBy

/-- The veto arrivals of one event, reported in ascending zone number once every zone's set stands whole. -/
def arrivalTasks (before after : ZoneUnit) : List Task :=
  (indices 32).flatMap fun z =>
    (arrivals (before.zone z) (after.zone z)).flatMap fun v => (after.zone z).mowersIn.map fun m => .vetoArrival z v m

/-- The unit after an event on its veto sets, with the arrivals the event made. -/
def applyZones (u : ZoneUnit) (g : Blocks) : Acts := ({ g with zones := u }, arrivalTasks g.zones u)

/-! ## The vetoes (R139–R143) -/

def Tables.isLawn (t : Tables) (z : Fin 32) : Bool := decide ((t.zones.get z).kind = .lawn)

/-- The rain state with its dry-off, and RAIN on every LAWN zone unless it is DRY. -/
def ZoneUnit.setRain (t : Tables) (s : RainState) (remaining : Nat) (u : ZoneUnit) : ZoneUnit :=
  { u.mapZones fun z x => { x with rain := decide (s ≠ .dry) && t.isLawn z } with rain := s, dryOffRemaining := remaining }

/-- HIGH-WARN of the rain channel moves the rain state (R139). -/
def ZoneUnit.takeRain (t : Tables) (high : Bool) (u : ZoneUnit) : ZoneUnit :=
  match u.rain with
  | .dry => if high then u.setRain t .raining 0 else u
  | .raining =>
    if high then u
    else if t.globals.dryOff = 0 then u.setRain t .dry 0 else u.setRain t .drying t.globals.dryOff
  | .drying => if high then u.setRain t .raining 0 else u

/-- Rain-no-data on every LAWN zone, or on none (R141). -/
def ZoneUnit.setRainNoData (t : Tables) (missing : Bool) (u : ZoneUnit) : ZoneUnit :=
  u.mapZones fun z x => { x with rainNoData := missing && t.isLawn z }

/-- A reading of the rain channel (R139, R141). -/
def ZoneUnit.readRain (t : Tables) (x : ChannelView) (u : ZoneUnit) : ZoneUnit :=
  (u.takeRain t x.live.highWarn).setRainNoData t (decide (x.state ≠ .fresh))

/-- A reading of a wet channel acts on every zone that names it (R141). -/
def ZoneUnit.readWet (t : Tables) (c : Fin 16) (x : ChannelView) (u : ZoneUnit) : ZoneUnit :=
  u.mapZones fun z k =>
    if (t.zones.get z).wetChannel = some c then { k with wet := x.live.highWarn, wetNoData := decide (x.state ≠ .fresh) } else k

/-- Whether a zone meets the condition of SPRAY (R142). -/
def ZoneUnit.sprayed (u : ZoneUnit) (z : Fin 32) : Bool :=
  u.windy && (indices 24).any fun d => (u.overCaps.get d).isOver && inSpray (u.overCaps.get d).spray z

/-- SPRAY evaluated for every zone (R142). -/
def ZoneUnit.evaluateSpray (u : ZoneUnit) : ZoneUnit := u.mapZones fun z x => { x with spray := u.sprayed z }

/-- A reading of the wind channel: SPRAY is evaluated when windy changes (R142). -/
def ZoneUnit.readWind (x : ChannelView) (u : ZoneUnit) : ZoneUnit :=
  if u.windy = x.live.highWarn then u else ZoneUnit.evaluateSpray { u with windy := x.live.highWarn }

/-- The Drive Unit reports a jet (R94, R142). -/
def takeOverCap (d : Fin 24) (isOver : Bool) (spray : ZoneSet) (g : Blocks) : Acts :=
  applyZones (ZoneUnit.evaluateSpray { g.zones with overCaps := g.zones.overCaps.set d ⟨isOver, spray⟩ }) g

/-- ZONE-VETO sets or clears MANUAL (R143). -/
def setManualVeto (z : Fin 32) (on : Bool) (g : Blocks) : Acts :=
  applyZones { g.zones with zones := g.zones.zones.set z { g.zone z with manual := on } } g

/-! ## Dark and the light states (R148–R150) -/

/-- Whether a zone is an enabled PATH. -/
def Tables.isPath (t : Tables) (z : Fin 32) : Bool := (t.zones.get z).enabled && decide ((t.zones.get z).kind = .path)

/-- A zone's lamp drive to be matched to its paths. -/
def lampTasks (t : Tables) (z : Fin 32) : List Task := (t.zones.get z).lamp.toList.map Task.lampSync

/-- The enabled PATH zones taken when dark becomes yes. -/
def darkTasks (t : Tables) : List Task := ((indices 32).filter t.isPath).map Task.darkPath

/-- A reading of the ambient channel (R149). -/
def readAmbient (t : Tables) (low : Bool) (g : Blocks) : Acts :=
  ({ g with zones := { g.zones with dark := low } }, if low && !g.zones.dark then darkTasks t else [])

/-- Whether a drive's TRANSIT is to be set: an enabled PATH naming it is LIT or HOLDING. -/
def transitDue (t : Tables) (d : Fin 24) (g : Blocks) : Bool :=
  (indices 32).any fun z => t.isPath z && decide ((t.zones.get z).lamp = some d) && decide ((g.zone z).light ≠ .idle)

/-- A drive's TRANSIT is matched to the paths naming it, and the drive recomputed where it changed (R149). -/
def lampSync (t : Tables) (d : Fin 24) (g : Blocks) : Acts :=
  let x := g.drive d
  if x.transit = transitDue t d g then done g
  else recompute t d none (g.setDrive d { x with transit := transitDue t d g })

/-- A light state and its hold. -/
def Zone.lighted (x : Zone) (l : Light) (hold : Nat) : Zone := { x with light := l, holdRemaining := hold }

/-- A zone's light when its count has risen from 0 (R149). -/
def Zone.countRose (dark : Bool) (x : Zone) : Zone :=
  match x.light with
  | .idle => if dark then x.lighted .lit 0 else x
  | .lit => x
  | .holding => x.lighted .lit 0

/-- A zone's light when its count has returned to 0 (R149). -/
def Zone.countEnded (hold : Nat) (x : Zone) : Zone :=
  match x.light with
  | .lit => if hold = 0 then x.lighted .idle 0 else x.lighted .holding hold
  | .idle => x
  | .holding => x

/-- A zone's transit count rises or falls by 1, and its light moves (R148, R149). -/
def pathCount (t : Tables) (z : Fin 32) (rises : Bool) (g : Blocks) : Acts :=
  let x := g.zone z
  let x' := { x with transitCount := if rises then x.transitCount + 1 else x.transitCount - 1 }
  if t.isPath z then
    (g.setZone z
      (if rises then (if x.transitCount = 0 then x'.countRose g.zones.dark else x')
       else (if x'.transitCount = 0 then x'.countEnded (t.zones.get z).transitHold else x')),
      lampTasks t z)
  else done (g.setZone z x')

/-- Dark has become yes, and an enabled PATH is taken (R149). -/
def darkPath (t : Tables) (z : Fin 32) (g : Blocks) : Acts :=
  let x := g.zone z
  if t.isPath z = true ∧ x.light = .idle ∧ 0 < x.transitCount then (g.setZone z (x.lighted .lit 0), lampTasks t z) else done g

/-- A round start reaches a zone's transit hold (R150). -/
def holdRound (t : Tables) (z : Fin 32) (g : Blocks) : Acts :=
  let x := g.zone z
  if x.light = .holding then
    if x.holdRemaining ≤ 1 then (g.setZone z (x.lighted .idle 0), lampTasks t z)
    else done (g.setZone z { x with holdRemaining := x.holdRemaining - 1 })
  else done g

/-- A round start reaches the dry-off (R140). -/
def dryOffRound (t : Tables) (g : Blocks) : Acts :=
  let u := g.zones
  if u.rain = .drying then
    if u.dryOffRemaining ≤ 1 then applyZones (u.setRain t .dry 0) g
    else done { g with zones := { u with dryOffRemaining := u.dryOffRemaining - 1 } }
  else done g

/-! ## Channel reports (R74) -/

/-- Where a channel is one a field names, its reading is taken. -/
def ZoneUnit.ifNamed (field : Option (Fin 16)) (c : Fin 16) (f : ZoneUnit → ZoneUnit) (u : ZoneUnit) : ZoneUnit :=
  if field = some c then f u else u

/-- The veto sets after a reading of channel `c`. -/
def ZoneUnit.read (t : Tables) (c : Fin 16) (x : ChannelView) (u : ZoneUnit) : ZoneUnit :=
  ((u.ifNamed t.globals.rainChannel c (ZoneUnit.readRain t x)).readWet t c x).ifNamed t.globals.windChannel c
    (ZoneUnit.readWind x)

/-- The Zone Unit takes a channel report: the vetoes and their arrivals, then dark. -/
def zoneReport (t : Tables) (r : ChannelReport) (g : Blocks) : Acts :=
  (applyZones (g.zones.read t r.channel ⟨r.value, r.state, r.live⟩) g).andThen fun h =>
    if t.globals.ambientChannel = some r.channel then readAmbient t r.live.lowWarn h else done h

/-! ## Occupancy (R145, R146) -/

/-- Whether ASSIGNED is the answer for zone `z` and mower `m` (R145). -/
def assignable (t : Tables) (m : Fin 4) (z : Fin 32) (g : Blocks) : Bool :=
  t.isLawn z && (t.zones.get z).enabled && (g.zone z).unvetoed && decide ((g.zone z).occupants = 0) &&
    !((indices 32).any fun y => (g.zone y).occupiedBy m)

/-- The jets whose spray set contains a zone are recomputed, in ascending drive number. -/
def jetTasks (t : Tables) (z : Fin 32) : List Task :=
  ((indices 24).filter fun d => decide ((t.binds.get d).kind = .jet) && inSpray (t.limits.get d).spraySet z).map
    fun d => .recompute d none

/-- The set holding one mower. -/
def mowerBit (m : Fin 4) : BitVec 4 := 1#4 <<< m.val

/-- An assignment granted: the mower occupies the zone, the jets are recomputed, and then the answer ASSIGNED is given (R145). -/
def assignZone (t : Tables) (m : Fin 4) (z : Fin 32) (g : Blocks) : Acts :=
  (g.setZone z { g.zone z with occupants := (g.zone z).occupants ||| mowerBit m }, jetTasks t z ++ [.dispatch m z])

/-- A release (R146): the mower is removed and the jets are recomputed, before RELEASED is answered; or NONE. -/
def releaseZone (t : Tables) (m : Fin 4) (z : Fin 32) (g : Blocks) : Acts :=
  if (g.zone z).occupiedBy m then
    (g.setZone z { g.zone z with occupants := (g.zone z).occupants &&& ~~~mowerBit m }, jetTasks t z)
  else done g

/-! ## The Mower Dispatcher's reports (R148) -/

/-- A mower's transit zone changes; the count that falls is taken before the count that rises. -/
def setTransitZone (m : Fin 4) (z : Option (Fin 32)) (g : Blocks) : Acts :=
  let old := g.zones.transitZones.get m
  if old = z then done g
  else ({ g with zones := { g.zones with transitZones := g.zones.transitZones.set m z } },
    (old.toList.map fun x => .pathCount x false) ++ z.toList.map fun y => .pathCount y true)

/-- A state report. -/
def takeStateReport (m : Fin 4) (s : MowerState) (g : Blocks) : Acts :=
  if s = .outbound ∨ s = .inbound ∨ s = .lost then done g else setTransitZone m none g

/-- A position report. -/
def takePosition (t : Tables) (m : Fin 4) (zone : Nat) (g : Blocks) : Acts :=
  match toFin? 32 zone with
  | some z => setTransitZone m (if t.isPath z then some z else none) g
  | none => done g

/-! ## Accepted writes (R137, R147) -/

/-- A channel's record as it stands. -/
def Blocks.viewNow (g : Blocks) (c : Fin 16) : ChannelView := g.view none c

/-- The vetoes of a zone after its entry was written (R147, item 1). -/
def Zone.revetoed (t : Tables) (z : Fin 32) (g : Blocks) (x : Zone) : Zone :=
  let rainMissing := match t.globals.rainChannel with
    | some c => decide ((g.viewNow c).state ≠ ChannelState.fresh)
    | none => false
  let x' := { x with rain := t.isLawn z && decide (g.zones.rain ≠ RainState.dry), rainNoData := t.isLawn z && rainMissing }
  match (t.zones.get z).wetChannel with
  | some c => { x' with wet := (g.viewNow c).live.highWarn, wetNoData := decide ((g.viewNow c).state ≠ ChannelState.fresh) }
  | none => { x' with wet := false, wetNoData := false }

/-- The light of a zone after its entry was written (R147, item 3). -/
def Zone.relighted (wasPath isPath dark : Bool) (x : Zone) : Zone :=
  if isPath then
    if wasPath then x
    else if dark = true ∧ 0 < x.transitCount then x.lighted .lit 0 else x.lighted .idle 0
  else x.lighted .idle 0

/-- An accepted ZONE entry has replaced `old` (R147). Where the lamp drive changes, the TRANSIT of the old one is matched before that of the
new one, which is the model's choice (notes/assumptions/39.md). -/
def zoneWritten (t : Tables) (z : Fin 32) (old : ZoneConfig) (g : Blocks) : Acts :=
  let new := t.zones.get z
  if old.kind = new.kind ∧ old.enabled = new.enabled ∧ old.wetChannel = new.wetChannel ∧ old.lamp = new.lamp then done g
  else
    let wasPath := old.enabled && decide (old.kind = .path)
    let x := ((g.zone z).revetoed t z g).relighted wasPath (t.isPath z) g.zones.dark
    (applyZones { g.zones with zones := g.zones.zones.set z x } g).hand
      ((old.lamp.toList ++ new.lamp.toList).eraseDups.map Task.lampSync)

/-- The unit after a change of the rain channel field (R137). -/
def ZoneUnit.rainFieldWritten (t : Tables) (g : Blocks) (u : ZoneUnit) : ZoneUnit :=
  match t.globals.rainChannel with
  | some c => u.readRain t (g.viewNow c)
  | none => (u.setRain t .dry 0).setRainNoData t false

/-- The unit after a change of the wind channel field (R137, R142). -/
def ZoneUnit.windFieldWritten (t : Tables) (g : Blocks) (u : ZoneUnit) : ZoneUnit :=
  ZoneUnit.evaluateSpray { u with windy := match t.globals.windChannel with
    | some c => (g.viewNow c).live.highWarn
    | none => false }

/-- An accepted GLOBAL entry has replaced `old`: the Zone Unit's part (R137). -/
def globalsWritten (t : Tables) (old : GlobalConfig) (g : Blocks) : Acts :=
  let u₁ := if old.rainChannel = t.globals.rainChannel then g.zones else g.zones.rainFieldWritten t g
  let u₂ := if old.windChannel = t.globals.windChannel then u₁ else u₁.windFieldWritten t g
  (applyZones u₂ g).andThen fun h =>
    if old.ambientChannel = t.globals.ambientChannel then done h
    else readAmbient t (match t.globals.ambientChannel with
      | some c => (g.viewNow c).live.lowWarn
      | none => false) h

end Sys2Proof.Machine
end

