-- ==== Sys2Proof/Machine/Mowers.lean ====
section
/-! DEFINITION. The Mower Dispatcher (chapter 9): states, the gate, dispatch, charging, the way home, presence, recall, clearing and
disabling. -/

namespace Sys2Proof.Machine

/-! ## States and the gate (R152, R154, R159) -/

/-- A mower state's code (R16). -/
def MowerState.code : MowerState → Nat
  | .absent => 0
  | .docked => 1
  | .charging => 2
  | .assigned => 3
  | .outbound => 4
  | .mowing => 5
  | .inbound => 6
  | .halted => 7
  | .lost => 8

/-- DOCKED or CHARGING. -/
def MowerState.atDock (s : MowerState) : Bool := decide (s = .docked) || decide (s = .charging)

/-- Charge wanted (R152). -/
def Mower.chargeWanted (x : Mower) : Bool := x.state.atDock && decide (x.lastBattery < 100)

/-- A change of a mower's run fields. -/
def updateMower (m : Fin 4) (f : Mower → Mower) (g : Blocks) : Blocks := g.setMower m (f (g.mower m))

/-- The fields a change of state touches: home owed is cleared at DOCKED, LOST and ABSENT (R165), and the retry timer runs only in
DOCKED and CHARGING (R159). -/
def Mower.moved (s : MowerState) (x : Mower) : Mower :=
  { x with
    state := s
    homeOwed := x.homeOwed && !(decide (s = .docked) || decide (s = .lost) || decide (s = .absent))
    retry := if s.atDock then x.retry else 0 }

/-- A mower enters a state: a change posts MOWER-STATE and hands a state report to the Zone Unit (R152). -/
def enter (m : Fin 4) (s : MowerState) (g : Blocks) : Acts :=
  let x := g.mower m
  if x.state = s then done g
  else ((updateMower m (Mower.moved s) g).post .mowerState m.val s.code x.state.code, [.stateReport m s])

/-- The gate conditions (R154). -/
def MowerUnit.gateMet (u : MowerUnit) : Bool := !u.held && u.daylight && !u.island

/-- The four conditions of a dispatch attempt (R159). -/
def ready (t : Tables) (m : Fin 4) (g : Blocks) : Bool :=
  (t.mowers.get m).enabled && (g.mower m).state.atDock &&
    decide ((t.mowers.get m).dispatchBattery ≤ (g.mower m).lastBattery) && g.mowers.gateMet

/-- A change of the gate or its two records, with an attempt for each mower whose conditions it makes hold (R159). -/
def changeGate (t : Tables) (f : MowerUnit → MowerUnit) (g : Blocks) : Acts :=
  let g' := { g with mowers := f g.mowers }
  (g', ((indices 4).filter fun m => !ready t m g && ready t m g').map Task.attempt)

/-- Daylight becomes `day` (R154). -/
def setDaylight (t : Tables) (day : Bool) (g : Blocks) : Acts := changeGate t (fun u => { u with daylight := day }) g

/-- The Trunk Port tells of entering or leaving ISLAND (R154). -/
def setIsland (t : Tables) (island : Bool) (g : Blocks) : Acts := changeGate t (fun u => { u with island := island }) g

/-- The Mower Dispatcher takes a channel report (R154). -/
def mowerReport (t : Tables) (r : ChannelReport) (g : Blocks) : Acts :=
  if t.globals.ambientChannel = some r.channel then
    setDaylight t (decide (r.state = .fresh) && !r.live.lowWarn) g
  else done g

/-- The ambient channel field was written (R154). -/
def ambientFieldWritten (t : Tables) (g : Blocks) : Acts :=
  setDaylight t (match t.globals.ambientChannel with
    | some c => decide ((g.viewNow c).state = ChannelState.fresh) && !(g.viewNow c).live.lowWarn
    | none => true) g

/-! ## Commands (R156) -/

/-- Whether a command is held for a mower. -/
def Mower.holds (c : MowerCommand) (x : Mower) : Bool := x.commands.any fun h => decide (h.id.command = c)

/-- Whether an entry is a command held for a mower, its record not disabled since (R170). -/
def Mower.owns (k : CommandId) (x : Mower) : Bool := x.commands.any fun h => decide (h.id = k) && !h.former

/-- Whether that command is CHARGE on. -/
def Mower.ownsOn (k : CommandId) (x : Mower) : Bool := x.commands.any fun h => decide (h.id = k) && !h.former && h.on

/-- The held mark of an entry is cleared. -/
def Mower.forget (k : CommandId) (x : Mower) : Mower := { x with commands := x.commands.filter fun h => decide (h.id ≠ k) }

/-- The setting of a CHARGE. -/
def MowerRequest.on : MowerRequest → Bool
  | .charge on => on
  | .go _ _ => false
  | .home => false

/-- A command queued and marked as held; and whether the queue refused it. -/
def queueHeld (t : Tables) (m : Fin 4) (r : MowerRequest) (g : Blocks) : Blocks × Option CommandOutcome :=
  let b := (t.mowers.get m).branch
  let mark : HeldCommand := ⟨⟨r.command, b, (g.line b).nextArrival⟩, r.on, false⟩
  let q := queueCommand t m r g
  (if q.2.isNone then updateMower m (fun x => { x with commands := x.commands ++ [mark] }) q.1 else q.1, q.2)

/-- Every waiting entry of a command is withdrawn, at most `n`, one request after another (R23), and its mark is cleared: two wait where
one has come back from a collision ahead of another (R36; notes/assumptions/41.md). -/
def withdrawWaiting (t : Tables) (m : Fin 4) (c : MowerCommand) : Nat → Blocks → Blocks
  | 0, g => g
  | n + 1, g =>
    let b := (t.mowers.get m).branch
    let w := withdraw b m c g
    match w.2 with
    | .withdrawn a => withdrawWaiting t m c n (updateMower m (Mower.forget ⟨c, b, a⟩) w.1)
    | .inExchange => w.1
    | .noEntry => w.1

/-- No entry of a command of a mower waits any longer. -/
def withdrawAll (t : Tables) (m : Fin 4) (c : MowerCommand) (g : Blocks) : Blocks := withdrawWaiting t m c Config.sendQueuePlaces g

/-- A queued MOWER-GO is withdrawn, and its held mark goes where one waited. The answer is that of the first request (R23); where two wait,
both go (notes/assumptions/41.md). -/
def withdrawGo (t : Tables) (m : Fin 4) (g : Blocks) : Blocks × Withdrawal :=
  (withdrawAll t m .go g, (withdraw (t.mowers.get m).branch m .go g).2)

/-- CHARGE queued to the dock, in place of what waits; and whether the queue refused it. -/
def queueCharge (t : Tables) (m : Fin 4) (on : Bool) (g : Blocks) : Blocks × Option CommandOutcome :=
  queueHeld t m (.charge on) (withdrawAll t m .charge g)

/-- CHARGE off queued; its outcome, should the queue refuse it, is discarded. -/
def queueChargeOff (t : Tables) (m : Fin 4) (g : Blocks) : Blocks := (queueCharge t m false g).1

/-- MOWER-HOME queued; a refusal leaves home owed as it stands (R165). -/
def queueHome (t : Tables) (m : Fin 4) (g : Blocks) : Blocks := (queueHeld t m .home g).1

/-- A mower is sent home, unless it is already home owed (R165). -/
def sendHome (t : Tables) (m : Fin 4) (g : Blocks) : Blocks :=
  let x := g.mower m
  if x.homeOwed then g
  else
    let g' := updateMower m (fun y => { y with homeOwed := true }) g
    if x.holds .home then g' else queueHome t m g'

/-! ## Zones and charge rows -/

/-- A charge release, which withdraws a standing request as well as a grant (R158). -/
def releaseCharge (t : Tables) (m : Fin 4) (g : Blocks) : Acts :=
  (publish (g.slu.chargeRelease t m) (some (.charge m)) g).change (updateMower m fun x => { x with chargeStanding := false })

/-- The retry timer is started (R157, R160–R162). -/
def startRetry (m : Fin 4) (g : Blocks) : Blocks := updateMower m (fun x => { x with retry := Config.retryRounds }) g

/-- What a mower leaving DOCKED or CHARGING gives up: its grant, with CHARGE off where asked, or its standing request (R158). -/
def leaveDock (t : Tables) (m : Fin 4) (chargeOff : Bool) (g : Blocks) : Acts :=
  let x := g.mower m
  if x.state = .charging then (releaseCharge t m g).change fun h => if chargeOff then queueChargeOff t m h else h
  else if x.chargeStanding then releaseCharge t m g
  else done g

/-- A CHARGING mower's charge ends and it is DOCKED, with CHARGE off and the retry timer where asked; it may then ask again (R158). That it makes
no charge request on this entry where its retry timer starts is the model's choice (notes/assumptions/46.md). -/
def endCharging (t : Tables) (m : Fin 4) (chargeOff retry : Bool) (g : Blocks) : Acts :=
  ((leaveDock t m chargeOff g).andThen (enter m .docked)).change fun h => if retry then startRetry m h else h

/-- A mower becomes CHARGING and CHARGE on is queued; a refusal by the queue ends the charge at once (R157). -/
def beginCharging (t : Tables) (m : Fin 4) (g : Blocks) : Acts :=
  (enter m .charging g).andThen fun h =>
    let r := queueCharge t m true h
    if r.2.isNone then done r.1 else endCharging t m false true r.1

/-- A mower asks for charge, where R157 allows. -/
def askCharge (t : Tables) (m : Fin 4) (g : Blocks) : Acts :=
  let x := g.mower m
  if (t.mowers.get m).enabled = true ∧ x.state = .docked ∧ x.chargeWanted = true ∧ x.chargeStanding = false ∧ x.retry = 0 then
    let r := g.slu.chargeRequest t m
    let p := publish r.1 (some (.charge m)) g
    if r.2 then p.andThen (beginCharging t m) else p.change (startRetry m)
  else done g

/-- The Supply and Load Unit pushes a charge row (R157, R158). A push that the row no longer bears out is a later push's. -/
def takeChargePush (t : Tables) (m : Fin 4) (p : ChargePush) (g : Blocks) : Acts :=
  let x := g.mower m
  let on := decide ((g.slu.charges.get m).granted = 1)
  match p with
  | .granted =>
    if x.chargeStanding = true ∧ x.state = .docked ∧ on = true then
      beginCharging t m (updateMower m (fun y => { y with chargeStanding := false }) g)
    else done g
  | .suspended =>
    if x.state = .charging ∧ on = false then
      enter m .docked (updateMower m (fun y => { y with chargeStanding := true }) (queueChargeOff t m g))
    else done g
  | .released =>
    if x.state = .charging ∧ on = false then
      (enter m .docked (updateMower m (fun y => { y with chargeStanding := false }) g)).hand [.ask m]
    else done g

/-! ## Releases (R146, R161) -/

/-- The position report of an OUTBOUND or INBOUND mower (R148). -/
def reportPosition (m : Fin 4) (g : Blocks) : Acts :=
  let x := g.mower m
  (g, if x.state = .outbound ∨ x.state = .inbound then [.position m x.lastZone] else [])

/-- Steps 4 and 5 of disabling a record (R170): its charge row leaves the table, and it becomes ABSENT with its marks cleared. -/
def endRecord (t : Tables) (m : Fin 4) (g : Blocks) : Acts :=
  ((releaseCharge t m g).andThen (enter m .absent)).change
    (updateMower m fun x => { x with homeOwed := false, returnReasons := [], chargeStanding := false, retry := 0, stint := 0 })

/-- RELEASED has been answered: the mower's assigned zone becomes none, and the dispatcher goes on. A mower DOCKED by its answer makes an
attempt and asks for charge; one DOCKED by a dispatch that came to nothing has its retry timer started and makes no attempt (R159), and
that it makes no charge request on that entry either is the model's choice (notes/assumptions/46.md). A mower no longer in the state it was
released in stays where it is. -/
def afterRelease (t : Tables) (m : Fin 4) (next : AfterRelease) (g : Blocks) : Acts :=
  let h := updateMower m (fun x => { x with assigned := none }) g
  match next with
  | .docks =>
    if (g.mower m).state.atDock then done h
    else (enter m .docked (updateMower m (fun x => { x with stint := 0 }) h)).hand [.attempt m, .ask m]
  | .drops => if (g.mower m).state = .assigned then (enter m .docked h).change (startRetry m) else done h
  | .reports => reportPosition m h
  | .clears => if (g.mower m).state = .lost then enter m .absent h else done h
  | .disables => endRecord t m h

/-- The assigned zone is released, and the dispatcher goes on once RELEASED is answered, all the jets concerned recomputed by then; without
an assigned zone it goes on at once. -/
def releaseThen (t : Tables) (m : Fin 4) (next : AfterRelease) (g : Blocks) : Acts :=
  match (g.mower m).assigned with
  | none => afterRelease t m next g
  | some z => (releaseZone t m z g).hand [.released m next]

/-! ## Answers (R155, R163, R166) -/

/-- Into DOCKED from another state than CHARGING: the zone is released, the stint ends, and an attempt and a charge request follow. -/
def arrive (t : Tables) (m : Fin 4) (g : Blocks) : Acts := releaseThen t m .docks g

/-- Out of the dock, or back from ABSENT, LOST or HALTED: INBOUND and sent home. -/
def comeHome (t : Tables) (m : Fin 4) (g : Blocks) : Acts :=
  ((leaveDock t m true g).andThen (enter m .inbound)).change (sendHome t m)

/-- Into HALTED: a queued MOWER-GO is withdrawn, and the zone kept (R155, R162). -/
def halt (t : Tables) (m : Fin 4) (g : Blocks) : Acts :=
  ((leaveDock t m true g).change fun h => (withdrawGo t m h).1).andThen (enter m .halted)

/-- An answer of mode DOCKED in DOCKED or CHARGING: the battery is checked for charging, then for dispatch (R155, R157–R159). -/
def dockedAnswer (t : Tables) (m : Fin 4) (wasReady : Bool) (g : Blocks) : Acts :=
  let x := g.mower m
  let p := if x.chargeWanted then done g
    else if x.state = .charging then endCharging t m true false g
    else leaveDock t m false g
  p.hand ((if ready t m p.1 && !wasReady then [.attempt m] else []) ++ [.ask m])

/-- Whether an answer shows the mower cutting its assigned zone. -/
def cuttingAssigned (x : Mower) : Bool :=
  decide (x.lastMode = .cutting) && (match x.assigned with
    | some z => decide (x.lastZone = z.val)
    | none => false)

/-- OUTBOUND becomes MOWING and the stint starts (R163). -/
def beginMowing (m : Fin 4) (g : Blocks) : Acts :=
  enter m .mowing (updateMower m (fun x => { x with stint := x.stintSent * Config.roundsPerMinute }) g)

/-- The move an answer makes, by the mower's state and the answer's mode (R155). -/
def moveByMode (t : Tables) (m : Fin 4) (wasReady : Bool) (g : Blocks) : Acts :=
  let x := g.mower m
  match x.lastMode with
  | .docked =>
    match x.state with
    | .docked => dockedAnswer t m wasReady g
    | .charging => dockedAnswer t m wasReady g
    | .assigned => done g
    | .absent => arrive t m g
    | .lost => arrive t m g
    | .outbound => arrive t m g
    | .mowing => arrive t m g
    | .inbound => arrive t m g
    | .halted => arrive t m g
  | .fault =>
    match x.state with
    | .absent => comeHome t m g
    | .lost => comeHome t m g
    | .halted => done g
    | .docked => halt t m g
    | .charging => halt t m g
    | .assigned => halt t m g
    | .outbound => halt t m g
    | .mowing => halt t m g
    | .inbound => halt t m g
  | .driving => driveOrCut t m x g
  | .cutting => driveOrCut t m x g
where
  /-- The middle column of R155. -/
  driveOrCut (t : Tables) (m : Fin 4) (x : Mower) (g : Blocks) : Acts :=
    match x.state with
    | .absent => comeHome t m g
    | .lost => comeHome t m g
    | .docked => comeHome t m g
    | .charging => comeHome t m g
    | .halted => comeHome t m g
    | .assigned => done g
    | .outbound => if cuttingAssigned x then beginMowing m g else done g
    | .mowing => done g
    | .inbound => done g

/-- A battery at or below the return threshold sends an OUTBOUND or MOWING mower home (R163), by the state after the answer's move, so that
one halted by a FAULT answer is not home owed, which is the model's choice (notes/assumptions/45.md). -/
def returnOnBattery (t : Tables) (m : Fin 4) (g : Blocks) : Blocks :=
  let x := g.mower m
  if (x.state = .outbound ∨ x.state = .mowing) ∧ x.lastBattery ≤ (t.mowers.get m).returnBattery then sendHome t m g else g

/-- Whether an INBOUND mower's last answer shows it in another zone than its assigned one (R166). -/
def hasLeftZone (x : Mower) : Bool :=
  match x.assigned with
  | some z => decide (x.state = .inbound) && decide (x.lastZone ≤ 31) && decide (x.lastZone ≠ z.val)
  | none => false

/-- An INBOUND mower's answer in another zone releases its assigned zone (R166); the position report comes after it (R148). -/
def releaseBehind (t : Tables) (m : Fin 4) (g : Blocks) : Acts :=
  if hasLeftZone (g.mower m) then releaseThen t m .reports g else reportPosition m g

/-- Whether an answer makes a mower out of its dock DOCKED, which leaves nothing more to do with it (R155). -/
def Mower.arrives (x : Mower) : Bool :=
  decide (x.lastMode = .docked) && !x.state.atDock && decide (x.state ≠ .assigned)

/-- What follows the move an answer made: the battery (R163), the zone left behind (R166), and the position report (R148). -/
def afterMove (t : Tables) (m : Fin 4) (g : Blocks) : Acts := releaseBehind t m (returnOnBattery t m g)

/-- A usable mower answer (R155). -/
def takeMowerAnswer (t : Tables) (m : Fin 4) (mode : MowerMode) (zone battery : Nat) (g : Blocks) : Acts :=
  let wasReady := ready t m g
  let g₁ := updateMower m (fun x => { x with lastMode := mode, lastZone := zone, lastBattery := battery }) g
  let p := moveByMode t m wasReady g₁
  if (g₁.mower m).arrives then p else p.andThen (afterMove t m)

/-! ## Dispatch (R159–R162) -/

/-- The rotation entries from the pointer on, wrapping at the active length (R160). -/
def scanOrder (pointer length : Nat) : List Nat := (List.range length).map fun k => (pointer + k) % length

/-- The first entry whose zone the Zone Unit assigns. -/
def scan (t : Tables) (m : Fin 4) (g : Blocks) : Option (Nat × Fin 32) :=
  ((scanOrder g.mowers.pointer t.rotationLength).find? fun i => assignable t m (t.rotation.get (Fin.ofNat 64 i)) g).map
    fun i => (i, t.rotation.get (Fin.ofNat 64 i))

/-- A dispatch attempt (R159, R160): the scan's first assignable zone is assigned, and its answer comes once the jets are capped. -/
def attempt (t : Tables) (m : Fin 4) (g : Blocks) : Acts :=
  if ready t m g then
    match scan t m g with
    | some (i, z) => assignZone t m z { g with mowers := { g.mowers with pointer := (i + 1) % t.rotationLength } }
    | none => done (startRetry m (g.post .noZone m.val g.mowers.pointer t.rotationLength))
  else done g

/-- A GO that came to nothing: the zone is released, DOCKED, the retry timer started, and no attempt is made on that entry
(R159, R161, R162). -/
def dropDispatch (t : Tables) (m : Fin 4) (g : Blocks) : Acts := releaseThen t m .drops g

/-- The answer ASSIGNED is taken (R160): the mower leaves the dock, and MOWER-GO is queued, also where an older one is still
held, although R156 has at most one (notes/assumptions/41.md). -/
def takeAssigned (t : Tables) (m : Fin 4) (z : Fin 32) (g : Blocks) : Acts :=
  ((leaveDock t m true g).andThen fun h =>
    enter m .assigned (updateMower m (fun x => { x with
      assigned := some z, stintSent := (t.zones.get z).stint, returnReasons := [] }) h)).andThen fun h =>
    let r := queueHeld t m (.go z (t.zones.get z).stint) h
    if r.2.isNone then done r.1 else dropDispatch t m r.1

/-- Whether a return-on-acceptance reason sends the mower home (R162). -/
def ReturnReason.sendsHome : ReturnReason → Bool
  | .recall => true
  | .veto v => decide (v ≠ .noData)

/-- An ASSIGNED mower's dispatch is withdrawn, or marked return on acceptance (R162). -/
def withdrawDispatch (t : Tables) (m : Fin 4) (reason : ReturnReason) (g : Blocks) : Acts :=
  let w := withdrawGo t m g
  if w.2 = .inExchange then
    done (updateMower m (fun x => { x with returnReasons := x.returnReasons ++ [reason] }) w.1)
  else dropDispatch t m w.1

/-- A veto arrival on a mower's assigned zone (R162, R164). -/
def takeVetoArrival (t : Tables) (z : Fin 32) (v : Veto) (m : Fin 4) (g : Blocks) : Acts :=
  let x := g.mower m
  if x.assigned = some z then
    match x.state with
    | .assigned => withdrawDispatch t m (.veto v) g
    | .outbound => if v = .noData then done g else done (sendHome t m g)
    | .mowing => if v = .noData then done g else done (sendHome t m g)
    | .absent => done g
    | .docked => done g
    | .charging => done g
    | .inbound => done g
    | .halted => done g
    | .lost => done g
  else done g

/-! ## Outcomes (R156, R157, R161, R165) -/

/-- The outcome of MOWER-GO, which clears the mark return on acceptance (R161, R162). -/
def goOutcome (t : Tables) (m : Fin 4) (o : CommandOutcome) (g : Blocks) : Acts :=
  let x := g.mower m
  let g' := updateMower m (fun y => { y with returnReasons := [] }) g
  if (t.mowers.get m).enabled = true ∧ x.state = .assigned then
    if o = .accepted then
      (enter m .outbound g').change fun h => if x.returnReasons.any ReturnReason.sendsHome then sendHome t m h else h
    else dropDispatch t m g'
  else done g'

/-- The outcome of MOWER-HOME (R165). -/
def homeOutcome (t : Tables) (m : Fin 4) (o : CommandOutcome) (g : Blocks) : Acts :=
  if (t.mowers.get m).enabled = true ∧ o = .accepted then
    match (g.mower m).state with
    | .outbound => enter m .inbound (updateMower m (fun y => { y with homeOwed := false }) g)
    | .mowing => enter m .inbound (updateMower m (fun y => { y with homeOwed := false }) g)
    | .inbound => done (updateMower m (fun y => { y with homeOwed := false }) g)
    | .halted => done (updateMower m (fun y => { y with homeOwed := false }) g)
    | .absent => done g
    | .docked => done g
    | .charging => done g
    | .assigned => done g
    | .lost => done g
  else done g

/-- The outcome of CHARGE on; one of CHARGE off is discarded (R156, R157). -/
def chargeOutcome (t : Tables) (m : Fin 4) (on : Bool) (o : CommandOutcome) (g : Blocks) : Acts :=
  if (t.mowers.get m).enabled = true ∧ (g.mower m).state = .charging ∧ on = true then
    match o with
    | .accepted => done g
    | .noAnswer => endCharging t m true true g
    | .refused => endCharging t m false true g
    | .notQueued => endCharging t m false true g
    | .failed => endCharging t m false true g
  else done g

/-- An outcome of a mower command clears its held mark and is acted on by the mower's state; one whose record has been disabled since is
discarded (R156, R170). -/
def takeOutcome (t : Tables) (m : Fin 4) (k : CommandId) (o : CommandOutcome) (g : Blocks) : Acts :=
  let x := g.mower m
  let g' := updateMower m (Mower.forget k) g
  if x.owns k then
    match k.command with
    | .go => goOutcome t m o g'
    | .home => homeOutcome t m o g'
    | .charge => chargeOutcome t m (x.ownsOn k) o g'
  else done g'

/-! ## Round starts (R159, R163, R165) -/

/-- A mower out of the dock that can be sent home. -/
def MowerState.out (s : MowerState) : Bool :=
  decide (s = .outbound) || decide (s = .mowing) || decide (s = .inbound) || decide (s = .halted)

/-- MOWER-HOME is queued again where it is owed and not held (R165). -/
def homeRound (t : Tables) (m : Fin 4) (g : Blocks) : Acts :=
  let x := g.mower m
  if x.homeOwed = true ∧ x.holds .home = false ∧ x.state.out = true then done (queueHome t m g) else done g

/-- The stint of a MOWING mower falls by 1; at 0 it is sent home (R163). -/
def stintRound (t : Tables) (m : Fin 4) (g : Blocks) : Acts :=
  let x := g.mower m
  if x.state = .mowing ∧ 0 < x.stint then
    let g' := updateMower m (fun y => { y with stint := y.stint - 1 }) g
    done (if x.stint = 1 then sendHome t m g' else g')
  else done g

/-- A running retry timer falls by 1; at 0 it expires (R159). -/
def retryRound (m : Fin 4) (g : Blocks) : Acts :=
  let x := g.mower m
  if 0 < x.retry then
    (updateMower m (fun y => { y with retry := y.retry - 1 }) g, if x.retry = 1 then [.attempt m, .ask m] else [])
  else done g

/-- A branch has become ON: its charge rows are off, so standing requests are gone, and each DOCKED mower attempts and asks afresh (R107,
R158, R159), one mower's attempt and request before the next one's, which is the model's choice (notes/assumptions/20.md). -/
def mowersPowered (t : Tables) (b : Branch) (g : Blocks) : Acts :=
  let own := (indices 4).filter fun m => t.loadOn b (.charge m)
  (own.foldl (fun h m => updateMower m (fun x => { x with
      chargeStanding := x.chargeStanding && decide ((g.slu.charges.get m).wanted = 1) }) h) g,
    (own.filter fun m => decide ((g.mower m).state = .docked)).flatMap fun m => [.attempt m, .ask m])

/-! ## Presence (R168) -/

/-- The mower node has become ABSENT. A mower that is out is LOST, and a MOWER-GO that waits is withdrawn, as one may in any of these
states where it came back from a collision. -/
def mowerNodeAbsent (t : Tables) (m : Fin 4) (g : Blocks) : Acts :=
  match (g.mower m).state with
  | .assigned => enter m .lost (withdrawGo t m g).1
  | .outbound => enter m .lost (withdrawGo t m g).1
  | .mowing => enter m .lost (withdrawGo t m g).1
  | .inbound => enter m .lost (withdrawGo t m g).1
  | .halted => enter m .lost (withdrawGo t m g).1
  | .docked => (leaveDock t m false g).andThen (enter m .absent)
  | .charging => (leaveDock t m false g).andThen (enter m .absent)
  | .absent => done g
  | .lost => done g

/-- The dock node has become ABSENT. -/
def dockNodeAbsent (t : Tables) (m : Fin 4) (g : Blocks) : Acts :=
  if (g.mower m).state = .charging then endCharging t m false true g else done g

/-- A presence change of an address of one mower's record. -/
def mowerPresence (t : Tables) (b : Branch) (node : Byte) (m : Fin 4) (g : Blocks) : Acts :=
  let k := t.mowers.get m
  if k.enabled = true ∧ k.branch = b then
    if k.node = node then mowerNodeAbsent t m g else if k.dock = node then dockNodeAbsent t m g else done g
  else done g

/-- The Mower Dispatcher takes a presence change: only ABSENT moves a mower. -/
def nodeLost (t : Tables) (b : Branch) (node : Byte) (g : Blocks) : Acts := actAll (mowerPresence t b node) (indices 4) g

/-! ## Recall and clearing (R169, R170) -/

/-- The recall of one mower. -/
def recallMower (t : Tables) (m : Fin 4) (g : Blocks) : Acts :=
  match (g.mower m).state with
  | .assigned => withdrawDispatch t m .recall g
  | .outbound => done (sendHome t m g)
  | .mowing => done (sendHome t m g)
  | .halted => done (sendHome t m g)
  | .absent => done g
  | .docked => done g
  | .charging => done g
  | .inbound => done g
  | .lost => done g

/-- HOLD. -/
def holdGate (g : Blocks) : Blocks := { g with mowers := { g.mowers with held := true } }

/-- RECALL: the mowers are taken in ascending number, each recall whole before the next. -/
def recallAll (g : Blocks) : Acts := (holdGate g, (indices 4).map Task.recallOne)

/-- RESUME. -/
def resumeGate (t : Tables) (g : Blocks) : Acts := changeGate t (fun u => { u with held := false }) g

/-- CLEAR-MOWER on a LOST mower (R170). -/
def clearLost (t : Tables) (m : Fin 4) (g : Blocks) : Acts := releaseThen t m .clears g

/-- A mark whose outcome is to be discarded. -/
def HeldCommand.disown (h : HeldCommand) : HeldCommand := { h with former := true }

/-- No command of a mower waits any longer, and the outcome of each still held, in exchange, is to be discarded (R170, step 1). -/
def withdrawCommands (t : Tables) (m : Fin 4) (g : Blocks) : Blocks :=
  updateMower m (fun x => { x with commands := x.commands.map HeldCommand.disown })
    (withdrawAll t m .charge (withdrawAll t m .home (withdrawAll t m .go g)))

/-- A record is disabled (R170): the tables no longer enable it. Its zone is released before its charge row leaves the table. -/
def disableMower (t : Tables) (m : Fin 4) (g : Blocks) : Acts :=
  let wasCharging := decide ((g.mower m).state = .charging)
  let g₁ := withdrawCommands t m g
  releaseThen t m .disables (if wasCharging then queueChargeOff t m g₁ else g₁)

/-- An accepted MOWER entry has replaced the one of `tOld` (R151): an enabled record's charge row joins its branch off and without marks
(R111). -/
def mowerWritten (tOld t : Tables) (m : Fin 4) (g : Blocks) : Acts :=
  let old := tOld.mowers.get m
  let new := t.mowers.get m
  if old.enabled then
    if new.enabled then
      let p := if old.chargeCurrent = new.chargeCurrent then done g else publish (g.slu.chargeChanged t m) none g
      p.hand (if !ready tOld m g && ready t m g then [.attempt m] else [])
    else disableMower t m g
  else if new.enabled then done (g.setSlu (g.slu.setRow (.charge m) (LoadRow.startUp .charge)))
  else done g

end Sys2Proof.Machine
end

