-- ==== Sys2Proof/Machine/Router.lean ====
section
/-! DEFINITION. The Frame Router (chapter 3): the form screen, the route table, downstream routing and interception, and what becomes
of answers going up. -/

namespace Sys2Proof.Machine

/-! ## The form screen (R5, R42) -/

/-- The kinds a trunk frame may have (R6). -/
def isDownKind (k : BitVec 4) : Bool :=
  decide (k = kindCommand) || decide (k = kindCommandAck) || decide (k = kindPoll) || decide (k = kindManage)

/-- Whether a destination can be served as a kind requires (R5). A byte above 127 is no address and is served by none
(notes/assumptions/15.md). -/
def servable (k : BitVec 4) (dest : Byte) : Bool :=
  if 127 < dest.toNat then false
  else if dest = Config.headUnit then false
  else if k = kindManage then decide (dest = Config.self)
  else if dest = Config.self then false
  else if k = kindPoll ∨ k = kindCommandAck then !isShared dest
  else true

/-- What the form screen makes of a frame (R42). -/
inductive Screened where
  | formatFault
  | manage
  | route
  deriving DecidableEq, Repr

/-- The tests of the form screen, in order. -/
def screen (f : Frame) : Screened :=
  if !isDownKind f.kind then .formatFault
  else if !servable f.kind f.dest then .formatFault
  else if f.kind = kindManage then (if f.payload.length < 4 then .formatFault else .manage)
  else if f.kind ≠ kindPoll ∧ commandForm f.kind f.payload = .malformed then .formatFault
  else .route

/-! ## The route table (R47) -/

/-- Whether an address matches an enabled entry. -/
def RouteEntry.matchesAddress (e : RouteEntry) (a : Byte) : Bool :=
  e.enabled && decide ((a ^^^ e.matchValue) &&& ~~~e.mask &&& 0x7F#8 = 0)

/-- The entry for an address: the lowest-numbered that matches. -/
def routeFor (t : Tables) (a : Byte) : Option RouteEntry :=
  ((indices 16).find? fun i => (t.routes.get i).matchesAddress a).map t.routes.get

/-- The branches of a target set, in order. -/
def TargetSet.branches : TargetSet → List Branch
  | .none => []
  | .onlyA => [.branchA]
  | .onlyB => [.branchB]
  | .both => [.branchA, .branchB]

/-! ## Downstream routing (R48–R52) -/

/-- A frame queued on its target set (R52), on Branch A first: where both find their queues full, Branch A's QUEUE-FULL comes first,
which is the model's choice (notes/assumptions/39.md). -/
def queueOnTargets (e : RouteEntry) (f : Frame) (g : Blocks) : Blocks := e.target.branches.foldl (fun h b => queueTrunk b f h) g

/-- The drives claiming a SET-LEVEL (R50). -/
def claimingDrives (t : Tables) (dest : Byte) (output : Nat) : List (Fin 24) :=
  (indices 24).filter fun d => t.bound d && decide ((t.binds.get d).dest = dest) && decide ((t.binds.get d).output = output)

/-- A manual level written to each claiming drive; each drive whose manual level changed is recomputed (R50, R83). -/
def writeManualLevels (t : Tables) (ds : List (Fin 24)) (level : Nat) (g : Blocks) : Acts :=
  let g' := ds.foldl (fun h d => writeManualLevel t d level h) g
  (g', (ds.filter fun d => decide ((g'.drive d).manual ≠ (g.drive d).manual)).map fun d => .recompute d none)

/-- An intercepted SET-LEVEL (R50). -/
def interceptLevel (t : Tables) (e : RouteEntry) (f : Frame) (output level : Nat) (g : Blocks) : Acts :=
  let ds := claimingDrives t f.dest output
  match ds.find? fun d => decide ((t.shapes.get d).mode ≠ .manual) with
  | some d => done (g.post .driveOwned d.val f.dest.toNat level)
  | none => if ds = [] then done (queueOnTargets e f g) else writeManualLevels t ds level g

/-- The mower that owns an address, the lowest-numbered (R51). -/
def mowerOwner (t : Tables) (dest : Byte) : Option (Fin 4) :=
  (indices 4).find? fun m =>
    let k := t.mowers.get m
    k.enabled && (decide (k.node = dest) || decide (k.dock = dest))

/-- An intercepted mower command (R51). -/
def interceptMower (t : Tables) (e : RouteEntry) (f : Frame) (isHome : Bool) (g : Blocks) : Acts :=
  match mowerOwner t f.dest with
  | none => done (queueOnTargets e f g)
  | some m =>
    if isHome then recallMower t m g
    else done (g.post .mowerOwned m.val (f.payload.headD 0).toNat f.dest.toNat)

/-- A trunk POLL goes to one branch's poll-now list (R49). -/
def routePoll (e : RouteEntry) (f : Frame) (g : Blocks) : Blocks :=
  match e.target with
  | .none => g
  | .onlyA => joinPollNow .branchA ⟨f.dest, f.source, f.tag, f.payload⟩ g
  | .both => joinPollNow .branchA ⟨f.dest, f.source, f.tag, f.payload⟩ g
  | .onlyB => joinPollNow .branchB ⟨f.dest, f.source, f.tag, f.payload⟩ g

/-- An entry with intercept set, by what the command is (R48). -/
def interceptFrame (t : Tables) (e : RouteEntry) (f : Frame) (g : Blocks) : Acts :=
  match commandForm f.kind f.payload with
  | .setLevel o l => interceptLevel t e f o l g
  | .mowerGo => interceptMower t e f false g
  | .charge => interceptMower t e f false g
  | .mowerHome => interceptMower t e f true g
  | .other => done (queueOnTargets e f g)
  | .malformed => done (queueOnTargets e f g)

/-- A frame that passed the screen is routed by the entry for its destination (R48). -/
def routeFrame (t : Tables) (f : Frame) (g : Blocks) : Acts :=
  match routeFor t f.dest with
  | none => done (g.post .unrouted f.dest.toNat f.kind.toNat 0)
  | some e =>
    if e.target = .none then done g
    else if f.kind = kindPoll then done (routePoll e f g)
    else if e.intercept then interceptFrame t e f g
    else done (queueOnTargets e f g)

/-! ## Answers going up (R53–R57) -/

/-- The mower whose node address an answer's source is (R53). -/
def answeringMower (t : Tables) (node : Byte) : Option (Fin 4) :=
  (indices 4).find? fun m => (t.mowers.get m).enabled && decide ((t.mowers.get m).node = node)

/-- What a usable mower answer hands the Mower Dispatcher. -/
def mowerAnswerTask (t : Tables) (f : Frame) : List Task :=
  match answeringMower t f.source, usableMowerAnswer f with
  | some m, some (mode, zone, battery) => [.mowerAnswer m mode zone battery]
  | _, _ => []

/-- A good answer: its values, then a usable mower answer, then whether it goes up (R53). -/
def takeGoodAnswer (t : Tables) (b : Branch) (mark : AnswerMark) (f : Frame) (g : Blocks) : Acts :=
  (g, ((valuesFor t b f.source (frameValues f)).map fun x => .newValue x.1 x.2) ++ mowerAnswerTask t f ++ [.forward b mark f])

/-- The absolute difference of two values, taken in full. -/
def valueGap (a b : Int) : Nat := (a - b).natAbs

/-- Whether a channel's value passes its forward deadband (R55). -/
def passesDeadband (t : Tables) (g : Blocks) (x : Fin 16 × Int) : Bool :=
  match (g.channel x.1).lastForwarded with
  | none => true
  | some v => decide ((t.channels.get x.1).deadband ≤ valueGap x.2 v)

/-- The forwarding record of a node address. -/
def forwardRecord (g : Blocks) (node : Byte) : ForwardRecord :=
  match toFin? 112 node.toNat with
  | some i => g.forwards.get i
  | none => ⟨none, none⟩

/-- Whether a record's keep-alive is due (R55). -/
def ForwardRecord.keepAliveDue (r : ForwardRecord) (now : Round) : Bool :=
  match r.round with
  | none => true
  | some x => decide (Config.keepAlive ≤ x.overdue now)

/-- The forwarding test of an ordinary answer (R55). -/
def passesForwarding (t : Tables) (now : Round) (b : Branch) (f : Frame) (g : Blocks) : Bool :=
  let bound := valuesFor t b f.source (frameValues f)
  let r := forwardRecord g f.source
  bound.isEmpty || bound.any (passesDeadband t g) || decide (r.status ≠ some (answerStatus f)) || r.keepAliveDue now

/-- Whether an answer goes up (R55, R56). -/
def goesUp (t : Tables) (now : Round) (b : Branch) (mark : AnswerMark) (f : Frame) (g : Blocks) : Bool :=
  match mark with
  | .trunkPoll => true
  | .forwardedCommand => true
  | .ordinary =>
    match routeFor t f.source with
    | some e => e.reportUp && passesForwarding t now b f g
    | none => false

/-- The REPORT of an answer (R8, R57). -/
def reportFrame (f : Frame) : Frame := ⟨Config.headUnit, f.source, kindReport, f.tag, f.payload⟩

/-- The forwarding record and the bound channels after a REPORT is placed (R57). -/
def noteForwarded (t : Tables) (now : Round) (b : Branch) (f : Frame) (g : Blocks) : Blocks :=
  let g₁ := (valuesFor t b f.source (frameValues f)).foldl
    (fun h x => h.setChannel x.1 { h.channel x.1 with lastForwarded := some x.2 }) g
  match toFin? 112 f.source.toNat with
  | some i => { g₁ with forwards := g₁.forwards.set i ⟨some (answerStatus f), some ⟨now, false⟩⟩ }
  | none => g₁

/-- An answer forwarded, where it goes up; one that finds no place leaves the records as they stand (R57). -/
def forwardAnswer (t : Tables) (now : Round) (b : Branch) (mark : AnswerMark) (f : Frame) (g : Blocks) : Acts :=
  if goesUp t now b mark f g then
    let g' := g.offer (reportFrame f)
    done (if g.up.hasRoom then noteForwarded t now b f g' else g')
  else done g

end Sys2Proof.Machine
end

