-- ==== Sys2Proof/Machine/Cascade.lean ====
section
/-! DEFINITION. How the blocks take what they hand one another: each event is taken whole, with everything it hands on, before the
next (R74, R145, R175; notes/assumptions/4.md). -/

namespace Sys2Proof.Machine

/-- The consumers of a channel report, in the order the model hands it to them (R73 fixes none; notes/assumptions/6.md). -/
def consumers : List Consumer := [.supplyUnit, .driveUnit, .zoneUnit, .mowerDispatcher]

/-- One consumer takes a channel report (R74). -/
def consume (t : Tables) (now : Round) (k : Consumer) (r : ChannelReport) (g : Blocks) : Acts :=
  match k with
  | .driveUnit => driveReport t r g
  | .zoneUnit => zoneReport t r g
  | .mowerDispatcher => mowerReport t r g
  | .supplyUnit => supplyReport t now r g

/-- One event taken by the block it is handed to. -/
def handle (t : Tables) (now : Round) (e : Task) (g : Blocks) : Acts :=
  match e with
  | .report r => (g, consumers.map fun k => .consume k r)
  | .consume k r => consume t now k r g
  | .newValue c v => takeValue t c v g
  | .sample c v => takeValue t (internalChannel c) v g
  | .ageChannel c => ageChannel t c g
  | .goStale c => makeStale c g
  | .channelsOff b => (g, staleTasks t b none)
  | .recompute d seen => recompute t d seen g
  | .pushDrive d => pushDrive t d g
  | .showWrite d l => writeShowLevel t d l g
  | .ageDrive d => ageDrive t d g
  | .drivesOff b => drivesUnpowered t b g
  | .unpower d => unpowerDrive t d g
  | .drivesOn b => drivesPowered t b g
  | .autoOn b => autoOnRound t now b g
  | .pushCharge m p => takeChargePush t m p g
  | .overCap d isOver spray => takeOverCap d isOver spray g
  | .lampSync d => lampSync t d g
  | .pathCount z rises => pathCount t z rises g
  | .darkPath z => darkPath t z g
  | .dryOffRound => dryOffRound t g
  | .holdRound z => holdRound t z g
  | .stateReport m s => takeStateReport m s g
  | .position m z => takePosition t m z g
  | .vetoArrival z v m => takeVetoArrival t z v m g
  | .attempt m => attempt t m g
  | .dispatch m z => takeAssigned t m z g
  | .released m next => afterRelease t m next g
  | .recallOne m => recallMower t m g
  | .ask m => askCharge t m g
  | .outcome m k o => takeOutcome t m k o g
  | .mowerAnswer m mode z battery => takeMowerAnswer t m mode z battery g
  | .mowersOn b => mowersPowered t b g
  | .homeRound m => homeRound t m g
  | .stintRound m => stintRound t m g
  | .retryRound m => retryRound m g
  | .exchangeEnd b => done (endExchange b g)
  | .nodeLost b node => nodeLost t b node g
  | .presence b node p => (g, if p = .absent then staleTasks t b (some node) ++ [.nodeLost b node] else [])
  | .unpolled b node => (g, staleTasks t b (some node))
  | .answer b mark f => takeGoodAnswer t b mark f g
  | .forward b mark f => forwardAnswer t now b mark f g
  | .lineOff b => lineOff t b g

/-- Events taken in order, each with all it hands on before the next; what is left when the count runs out waits in the agenda. -/
def run (t : Tables) (now : Round) : Nat → List Task → Blocks → Blocks
  | _, [], g => g
  | 0, es, g => { g with agenda := g.agenda ++ es }
  | fuel + 1, e :: es, g =>
    let p := handle t now e g
    run t now fuel (p.2 ++ es) p.1

/-- The agenda taken out, and run with further events after it. -/
def settle (t : Tables) (now : Round) (es : List Task) (g : Blocks) : Blocks :=
  run t now Config.cascadeFuel (g.agenda ++ es) { g with agenda := [] }

/-- A block's act, and all that follows from it. -/
def settleActs (t : Tables) (now : Round) (p : Acts) : Blocks := settle t now p.2 p.1

/-- A block's act while the part runs, and all that follows from it. -/
def actOn (f : Blocks → Acts) (s : State) : State :=
  { s with blocks := settleActs s.tables s.clock.round (f s.blocks) }

end Sys2Proof.Machine
end

