-- ==== Sys2Proof/Machine/Layouts.lean ====
section
/-! DEFINITION. The tables the Management Agent reads and writes (R15, R16): each table's entries laid out as bytes, the entries of a
WRITE read and checked, and the bytes of the store image (R179). -/

namespace Sys2Proof.Machine

/-! ## Table ids (R15) -/

inductive TableId where
  | route
  | pollA
  | pollB
  | channel
  | driveBind
  | driveShape
  | driveLimit
  | curve
  | cue
  | zone
  | rotation
  | mower
  | supply
  | globals
  | channelState
  | driveState
  | loadState
  | nodeState
  | mowerState
  | zoneState
  deriving DecidableEq, Repr

/-- The tables in ascending id, from 1. -/
def allTables : List TableId :=
  [.route, .pollA, .pollB, .channel, .driveBind, .driveShape, .driveLimit, .curve, .cue, .zone, .rotation, .mower, .supply, .globals,
    .channelState, .driveState, .loadState, .nodeState, .mowerState, .zoneState]

/-- The table of an id. -/
def tableOf (code : Nat) : Option TableId := if code = 0 then none else allTables[code - 1]?

/-- The read-write tables, ids 1–14. -/
def storedTables : List TableId := allTables.take 14

/-- A table's number of entries. -/
def TableId.entries : TableId → Nat
  | .route => 16
  | .pollA => 32
  | .pollB => 32
  | .channel => 16
  | .driveBind => 24
  | .driveShape => 24
  | .driveLimit => 24
  | .curve => 256
  | .cue => 64
  | .zone => 32
  | .rotation => 65
  | .mower => 4
  | .supply => 2
  | .globals => 1
  | .channelState => 16
  | .driveState => 24
  | .loadState => 28
  | .nodeState => 66
  | .mowerState => 5
  | .zoneState => 33

/-- The size of a table's entry. -/
def TableId.size : TableId → Nat
  | .route => 6
  | .pollA => 2
  | .pollB => 2
  | .channel => 17
  | .driveBind => 4
  | .driveShape => 13
  | .driveLimit => 13
  | .curve => 1
  | .cue => 19
  | .zone => 7
  | .rotation => 1
  | .mower => 8
  | .supply => 3
  | .globals => 7
  | .channelState => 9
  | .driveState => 9
  | .loadState => 8
  | .nodeState => 5
  | .mowerState => 10
  | .zoneState => 5

/-! ## Codes (R16) -/

def branchByte (b : Branch) : Byte := byteOf b.code
def branchOf (x : Byte) : Option Branch := if x = 0 then some .branchA else if x = 1 then some .branchB else none

def TargetSet.byte : TargetSet → Byte
  | .none => 0
  | .onlyA => 1
  | .onlyB => 2
  | .both => 3
def targetOf (x : Byte) : Option TargetSet :=
  if x = 0 then some .none else if x = 1 then some .onlyA else if x = 2 then some .onlyB else if x = 3 then some .both else none

def DriveMode.byte : DriveMode → Byte
  | .off => 0
  | .auto => 1
  | .manual => 2
  | .inShow => 3
def modeOf (x : Byte) : Option DriveMode :=
  if x = 0 then some .off else if x = 1 then some .auto else if x = 2 then some .manual else if x = 3 then some .inShow else none

def DriveKind.byte : DriveKind → Byte
  | .pump => 0
  | .jet => 1
  | .lamp => 2
def kindOf (x : Byte) : Option DriveKind :=
  if x = 0 then some .pump else if x = 1 then some .jet else if x = 2 then some .lamp else none

def TripSense.byte : TripSense → Byte
  | .lowAlarm => 0
  | .highAlarm => 1
def senseOf (x : Byte) : Option TripSense := if x = 0 then some .lowAlarm else if x = 1 then some .highAlarm else none

def ZoneKind.byte : ZoneKind → Byte
  | .lawn => 0
  | .path => 1
  | .water => 2
  | .bed => 3
def zoneKindOf (x : Byte) : Option ZoneKind :=
  if x = 0 then some .lawn else if x = 1 then some .path else if x = 2 then some .water else if x = 3 then some .bed else none

def ChannelState.byte : ChannelState → Byte
  | .empty => 0
  | .fresh => 1
  | .stale => 2

def Presence.byte : Presence → Byte
  | .unknown => 0
  | .present => 1
  | .absent => 2

def MowerMode.byte : MowerMode → Byte
  | .docked => 0
  | .driving => 1
  | .cutting => 2
  | .fault => 3

/-- A yes/no byte read: any non-zero value is yes. -/
def isYes (x : Byte) : Bool := decide (x ≠ 0)

/-- A number a record may leave out: 255 where it names none. -/
def optionByte {n : Nat} : Option (Fin n) → Byte
  | some i => byteOf i.val
  | none => 255

/-- A number or 255 for none; refused between. -/
def optionOf (n : Nat) (x : Byte) : Option (Option (Fin n)) :=
  if x = 255 then some none else (toFin? n x.toNat).map some

def nat16 (hi lo : Byte) : Nat := (word16 hi lo).toNat
def int16 (hi lo : Byte) : Int := (word16 hi lo).toInt

/-- The four bytes of a set of zones, high byte first. -/
def zoneSetBytes (s : ZoneSet) : List Byte :=
  [s.extractLsb' 24 8, s.extractLsb' 16 8, s.extractLsb' 8 8, s.extractLsb' 0 8]

/-! ## Entries laid out (R15) -/

def RouteEntry.bytes (e : RouteEntry) : List Byte :=
  [yesNo e.enabled, e.matchValue, e.mask, e.target.byte, yesNo e.reportUp, yesNo e.intercept]

def PollEntry.bytes (e : PollEntry) : List Byte := [e.node, byteOf e.interval]

/-- A CHANNEL entry; the binding fields of channels 12–15 read as 0. -/
def ChannelConfig.bytes (i : Nat) (e : ChannelConfig) : List Byte :=
  (if i < 12 then [yesNo e.enabled, branchByte e.branch, e.node, byteOf e.valueIndex] else [0, 0, 0, 0]) ++
    bytes16 e.staleLimit ++ bytesSigned e.highAlarm ++ bytesSigned e.highWarn ++ bytesSigned e.lowWarn ++ bytesSigned e.lowAlarm ++
    [byteOf e.hysteresis] ++ bytes16 e.deadband

def DriveBind.bytes (e : DriveBind) : List Byte := [branchByte e.branch, e.dest, byteOf e.output, e.kind.byte]

def DriveShape.bytes (e : DriveShape) : List Byte :=
  [e.mode.byte, byteOf e.indexChannel.val] ++ bytesSigned e.base ++ bytes16 e.step ++
    [byteOf e.curve.val, optionByte e.boostChannel, byteOf e.boostAmount, optionByte e.holdChannel, byteOf e.holdLevel,
      optionByte e.tripChannel, e.tripSense.byte]

def DriveLimit.bytes (e : DriveLimit) : List Byte :=
  [byteOf e.maxLevel, byteOf e.floorLevel, byteOf e.fallbackLevel] ++ bytes16 e.rated ++ [byteOf e.deadband, byteOf e.refresh] ++
    zoneSetBytes e.spraySet ++ [byteOf e.sprayCap, byteOf e.transitLevel]

/-- A run of bytes padded with 0 to a length. -/
def padTo (n : Nat) (bs : List Byte) : List Byte := bs ++ List.replicate (n - bs.length) 0

def CueAction.bytes : CueAction → List Byte
  | .level d l => 0 :: padTo 11 [byteOf d.val, byteOf l]
  | .frame b dest payload => 1 :: ([branchByte b, dest, byteOf payload.length] ++ padTo 8 payload)

def CueConfig.bytes (e : CueConfig) : List Byte :=
  [yesNo e.enabled, byteOf e.inShow.val, byteOf e.slot.val, byteOf e.period, byteOf e.phase, byteOf e.priority, byteOf e.tolerance] ++
    e.action.bytes

def ZoneConfig.bytes (e : ZoneConfig) : List Byte :=
  [e.kind.byte, yesNo e.enabled, optionByte e.wetChannel, byteOf e.stint, optionByte e.lamp] ++ bytes16 e.transitHold

def MowerConfig.bytes (e : MowerConfig) : List Byte :=
  [yesNo e.enabled, branchByte e.branch, e.node, e.dock] ++ bytes16 e.chargeCurrent ++
    [byteOf e.dispatchBattery, byteOf e.returnBattery]

def SupplyConfig.bytes (e : SupplyConfig) : List Byte := bytes16 e.budget ++ [yesNo e.autoOn]

def GlobalConfig.bytes (e : GlobalConfig) : List Byte :=
  [optionByte e.rainChannel, optionByte e.ambientChannel, optionByte e.windChannel] ++ bytes16 e.dryOff ++ bytes16 e.silenceTimeout

def Channel.bytes (x : Channel) : List Byte :=
  bytesSigned x.value ++ [x.state.byte, x.live.byte, x.latched.byte] ++ bytes16 x.rounds ++ bytesSigned (x.lastForwarded.getD 0)

/-- A DRIVE-STATE entry. -/
def driveStateBytes (mode : DriveMode) (x : Drive) : List Byte :=
  [mode.byte, byteOf x.manual, byteOf x.showLevel, byteOf x.base, byteOf x.wanted, byteOf x.granted, byteOf x.lastSent,
    yesNo x.sentKnown, x.flagByte]

/-- A LOAD-STATE entry; one whose row is absent reads 0. -/
def loadStateBytes (present : Bool) (b : Branch) (r : LoadRow) : List Byte :=
  if present then
    [1, branchByte b, byteOf r.cls.rank, byteOf r.wanted, byteOf r.granted] ++ bytes16 r.current ++ [r.markByte]
  else List.replicate 8 0

/-- A poll entry of NODE-STATE. -/
def nodeStateBytes (e : PollEntry) (x : PollRun) : List Byte := [e.node, x.presence.byte, byteOf x.misses] ++ bytes16 x.garbles

/-- A branch's entry of NODE-STATE. -/
def lineStateBytes (l : Line) : List Byte := bytes16 l.collisions ++ bytes16 l.unsolicited ++ [byteOf l.queue.length]

/-- A mower's entry of MOWER-STATE. -/
def mowerStateBytes (x : Mower) (transit : Option (Fin 32)) : List Byte :=
  [byteOf x.state.code, optionByte x.assigned] ++ bytes16 x.stint ++
    [x.lastMode.byte, byteOf x.lastZone, byteOf x.lastBattery, yesNo x.chargeWanted, byteOf x.retry, optionByte transit]

/-- A zone's entry of ZONE-STATE. -/
def zoneStateBytes (x : Zone) : List Byte :=
  [x.vetoByte, x.occupants.setWidth 8, byteOf x.transitCount] ++ bytes16 x.holdRemaining

/-- One entry of a read-write table. -/
def Tables.entryBytes (t : Tables) (i : Nat) : TableId → List Byte
  | .route => (t.routes.get (Fin.ofNat 16 i)).bytes
  | .pollA => (t.polls.forA.get (Fin.ofNat 32 i)).bytes
  | .pollB => (t.polls.forB.get (Fin.ofNat 32 i)).bytes
  | .channel => (t.channels.get (Fin.ofNat 16 i)).bytes i
  | .driveBind => (t.binds.get (Fin.ofNat 24 i)).bytes
  | .driveShape => (t.shapes.get (Fin.ofNat 24 i)).bytes
  | .driveLimit => (t.limits.get (Fin.ofNat 24 i)).bytes
  | .curve => [byteOf ((t.curves.get (Fin.ofNat 8 (i / 32))).get (Fin.ofNat 32 (i % 32)))]
  | .cue => (t.cues.get (Fin.ofNat 64 i)).bytes
  | .zone => (t.zones.get (Fin.ofNat 32 i)).bytes
  | .rotation => if i < 64 then [byteOf (t.rotation.get (Fin.ofNat 64 i)).val] else [byteOf t.rotationLength]
  | .mower => (t.mowers.get (Fin.ofNat 4 i)).bytes
  | .supply => if i = 0 then t.supply.forA.bytes else t.supply.forB.bytes
  | .globals => t.globals.bytes
  | .channelState => []
  | .driveState => []
  | .loadState => []
  | .nodeState => []
  | .mowerState => []
  | .zoneState => []

/-- One entry of any table, as it stands. -/
def entryBytes (t : Tables) (g : Blocks) (i : Nat) (table : TableId) : List Byte :=
  match table with
  | .channelState => (g.channel (Fin.ofNat 16 i)).bytes
  | .driveState => driveStateBytes (t.shapes.get (Fin.ofNat 24 i)).mode (g.drive (Fin.ofNat 24 i))
  | .loadState =>
    if i < 24 then
      let d := Fin.ofNat 24 i
      loadStateBytes (t.bound d) (t.binds.get d).branch (g.slu.drives.get d)
    else
      let m := Fin.ofNat 4 (i - 24)
      loadStateBytes (t.mowers.get m).enabled (t.mowers.get m).branch (g.slu.charges.get m)
  | .nodeState =>
    if i < 32 then nodeStateBytes (t.polls.forA.get (Fin.ofNat 32 i)) (g.lines.forA.polls.get (Fin.ofNat 32 i))
    else if i < 64 then nodeStateBytes (t.polls.forB.get (Fin.ofNat 32 i)) (g.lines.forB.polls.get (Fin.ofNat 32 i))
    else if i = 64 then lineStateBytes g.lines.forA
    else lineStateBytes g.lines.forB
  | .mowerState =>
    if i < 4 then mowerStateBytes (g.mower (Fin.ofNat 4 i)) (g.zones.transitZones.get (Fin.ofNat 4 i))
    else [yesNo g.mowers.held, byteOf g.mowers.pointer] ++ List.replicate 8 0
  | .zoneState =>
    if i < 32 then zoneStateBytes (g.zone (Fin.ofNat 32 i)) else padTo 5 (bytes16 g.zones.dryOffRemaining)
  | .route => t.entryBytes i .route
  | .pollA => t.entryBytes i .pollA
  | .pollB => t.entryBytes i .pollB
  | .channel => t.entryBytes i .channel
  | .driveBind => t.entryBytes i .driveBind
  | .driveShape => t.entryBytes i .driveShape
  | .driveLimit => t.entryBytes i .driveLimit
  | .curve => t.entryBytes i .curve
  | .cue => t.entryBytes i .cue
  | .zone => t.entryBytes i .zone
  | .rotation => t.entryBytes i .rotation
  | .mower => t.entryBytes i .mower
  | .supply => t.entryBytes i .supply
  | .globals => t.entryBytes i .globals

/-! ## The store image (R179) -/

/-- The bytes of the image: every entry of tables 1–14, in ascending id and index. -/
def imageBytes (t : Tables) : List Byte :=
  storedTables.flatMap fun k => (List.range k.entries).flatMap fun i => t.entryBytes i k

/-- Whether an image is valid: its completion mark is set and its CRC-16 agrees with its contents. -/
def Image.isValid (x : Image) : Bool := x.mark && decide (x.crc = crc16 (imageBytes x.contents))

/-- The image a commit that completes leaves (R180). -/
def Image.committed (t : Tables) : Image := ⟨t, crc16 (imageBytes t), true⟩

/-! ## Entries of a WRITE read and checked (R16, R176): none is BAD-VALUE -/

def decodeRoute : List Byte → Option RouteEntry
  | [en, value, mask, target, up, cept] =>
    match targetOf target with
    | some k => if value.toNat ≤ 125 then some ⟨isYes en, value, mask &&& 0x7F#8, k, isYes up, isYes cept⟩ else none
    | none => none
  | _ => none

def decodePoll : List Byte → Option PollEntry
  | [node, interval] =>
    if node.toNat ≤ 111 ∧ 1 ≤ interval.toNat ∧ interval.toNat ≤ 240 then some ⟨node, interval.toNat⟩ else none
  | _ => none

/-- A CHANNEL entry of channel `i`. The branch code is checked on every channel, since R16 exempts no branch byte although R59 names that refusal
for channels 0–11 alone (notes/assumptions/28.md); the binding bytes of channels 12–15 are then not stored (R15, R59). -/
def decodeChannel (i : Nat) : List Byte → Option ChannelConfig
  | [en, br, node, idx, s1, s0, ha1, ha0, hw1, hw0, lw1, lw0, la1, la0, hyst, d1, d0] =>
    if nat16 s1 s0 = 0 ∨ 32767 < nat16 d1 d0 then none
    else
      let rest := fun (e : Bool) (b : Branch) (n : Byte) (v : Nat) =>
        (⟨e, b, n, v, nat16 s1 s0, int16 ha1 ha0, int16 hw1 hw0, int16 lw1 lw0, int16 la1 la0, hyst.toNat, nat16 d1 d0⟩ : ChannelConfig)
      match branchOf br with
      | some b =>
        if i < 12 then
          if idx.toNat ≤ 10 ∧ node.toNat ≤ 111 ∧ ¬(isYes en = true ∧ node = 0) then some (rest (isYes en) b node idx.toNat)
          else none
        else some (rest false .branchA 0 0)
      | none => none
  | _ => none

def decodeBind : List Byte → Option DriveBind
  | [br, dest, out, kind] =>
    match branchOf br, kindOf kind with
    | some b, some k => if dest.toNat ≤ 125 ∧ out.toNat ≤ 3 then some ⟨b, dest, out.toNat, k⟩ else none
    | _, _ => none
  | _ => none

def decodeShape : List Byte → Option DriveShape
  | [mode, idx, b1, b0, s1, s0, curve, boost, amount, hold, level, trip, sense] =>
    match modeOf mode, toFin? 16 idx.toNat, toFin? 8 curve.toNat, optionOf 16 boost, optionOf 16 hold, optionOf 16 trip,
      senseOf sense with
    | some m, some i, some c, some bo, some ho, some tr, some se =>
      if 1 ≤ nat16 s1 s0 ∧ nat16 s1 s0 ≤ 4095 then
        some ⟨m, i, int16 b1 b0, nat16 s1 s0, c, bo, amount.toNat, ho, level.toNat, tr, se⟩
      else none
    | _, _, _, _, _, _, _ => none
  | _ => none

/-- A DRIVE-LIMIT entry, with whether its rated current was clamped (R79). -/
def decodeLimit : List Byte → Option (DriveLimit × Bool)
  | [mx, floor, fall, r1, r0, dead, refresh, z3, z2, z1, z0, cap, transit] =>
    if refresh.toNat ≤ 240 then
      some (⟨mx.toNat, floor.toNat, fall.toNat, min 1000 (nat16 r1 r0), dead.toNat, refresh.toNat, z3 ++ z2 ++ z1 ++ z0, cap.toNat,
        transit.toNat⟩, decide (1000 < nat16 r1 r0))
    else none
  | _ => none

def decodeLevel : List Byte → Option Nat
  | [level] => some level.toNat
  | _ => none

/-- Whether a stored payload is one a cue may hold (R9, R121). -/
def cuePayloadAllowed (payload : List Byte) : Bool :=
  match commandForm kindCommand payload with
  | .setLevel _ _ => true
  | .other => true
  | .malformed => false
  | .mowerGo => false
  | .mowerHome => false
  | .charge => false

def decodeAction : List Byte → Option CueAction
  | code :: rest =>
    if code = 0 then
      match rest with
      | drive :: level :: _ => (toFin? 24 drive.toNat).map fun d => .level d level.toNat
      | _ => none
    else if code = 1 then
      match rest with
      | br :: dest :: length :: stored =>
        match branchOf br with
        | some b =>
          let payload := stored.take length.toNat
          if dest.toNat ≤ 125 ∧ 1 ≤ length.toNat ∧ length.toNat ≤ 8 ∧ cuePayloadAllowed payload = true then
            some (.frame b dest payload)
          else none
        | none => none
      | _ => none
    else none
  | _ => none

def decodeCue : List Byte → Option CueConfig
  | en :: sh :: slot :: period :: phase :: priority :: tolerance :: rest =>
    match toFin? 4 sh.toNat, toFin? 40 slot.toNat, decodeAction rest with
    | some s, some o, some a =>
      if rest.length = 12 ∧ 1 ≤ period.toNat ∧ period.toNat ≤ 240 ∧ phase.toNat < period.toNat ∧ 1 ≤ priority.toNat ∧
          priority.toNat ≤ 7 ∧ tolerance.toNat ≤ 15 then
        some ⟨isYes en, s, o, period.toNat, phase.toNat, priority.toNat, tolerance.toNat, a⟩
      else none
    | _, _, _ => none
  | _ => none

def decodeZone : List Byte → Option ZoneConfig
  | [kind, en, wet, stint, lamp, h1, h0] =>
    match zoneKindOf kind, optionOf 16 wet, optionOf 24 lamp with
    | some k, some w, some l =>
      if 1 ≤ stint.toNat ∧ stint.toNat ≤ 240 ∧ nat16 h1 h0 ≤ 2400 then some ⟨k, isYes en, w, stint.toNat, l, nat16 h1 h0⟩ else none
    | _, _, _ => none
  | _ => none

/-- A ROTATION entry: a zone, or at entry 64 the active length (R153). -/
inductive RotationEntry where
  | zone (z : Fin 32)
  | length (n : Nat)
  deriving DecidableEq, Repr

def decodeRotation (i : Nat) : List Byte → Option RotationEntry
  | [x] =>
    if i < 64 then (toFin? 32 x.toNat).map .zone
    else if 1 ≤ x.toNat ∧ x.toNat ≤ 64 then some (.length x.toNat) else none
  | _ => none

def decodeMower : List Byte → Option MowerConfig
  | [en, br, node, dock, c1, c0, dispatch, home] =>
    match branchOf br with
    | some b =>
      if node.toNat ≤ 111 ∧ dock.toNat ≤ 111 ∧ nat16 c1 c0 ≤ 2000 ∧ dispatch.toNat ≤ 100 ∧ home.toNat ≤ 100 ∧
          ¬(isYes en = true ∧ (node = 0 ∨ dock = 0)) ∧ node ≠ dock then
        some ⟨isYes en, b, node, dock, nat16 c1 c0, dispatch.toNat, home.toNat⟩
      else none
    | none => none
  | _ => none

/-- A SUPPLY entry, with whether its budget was clamped (R108). -/
def decodeSupply : List Byte → Option (SupplyConfig × Bool)
  | [b1, b0, on] => some (⟨min 2000 (nat16 b1 b0), isYes on⟩, decide (2000 < nat16 b1 b0))
  | _ => none

/-- A GLOBAL entry, with whether a value was clamped (R137, R176). -/
def decodeGlobal : List Byte → Option (GlobalConfig × Bool)
  | [rain, ambient, wind, d1, d0, s1, s0] =>
    match optionOf 16 rain, optionOf 16 ambient, optionOf 16 wind with
    | some r, some a, some w =>
      let silence := max 8 (min 2400 (nat16 s1 s0))
      some (⟨r, a, w, min 14400 (nat16 d1 d0), silence⟩, decide (14400 < nat16 d1 d0) || decide (silence ≠ nat16 s1 s0))
    | _, _, _ => none
  | _ => none

end Sys2Proof.Machine
end

