-- ==== Sys2Proof/Machine/Management.lean ====
section
/-! DEFINITION. The Management Agent (chapter 10): replies, the checks of R173, reading, writing, the control requests, the store
commit, identity, status and restart. Each row of the agent acts on the request the agent holds (notes/assumptions/5.md). -/

namespace Sys2Proof.Machine

/-! ## Replies (R13, R172) -/

/-- The result codes of R13. -/
inductive Result where
  | done
  | doneClamped
  | busy
  | badTable
  | badIndex
  | badValue
  | refused
  | tooSoon
  deriving DecidableEq, Repr

def Result.code : Result → Nat
  | .done => 0
  | .doneClamped => 1
  | .busy => 2
  | .badTable => 3
  | .badIndex => 4
  | .badValue => 5
  | .refused => 6
  | .tooSoon => 7

/-- The MANAGE-REPLY to a request (R8, R13). -/
def replyFrame (r : Request) (res : Result) (count : Nat) (data : List Byte) : Frame :=
  ⟨r.source, Config.self, kindManageReply, r.tag,
    [byteOf res.code, byteOf r.table, byteOf r.first, byteOf count] ++ data⟩

/-- A reply joins the end of the upstream queue, and its claim ends (R43). -/
def Upstream.placeReply (u : Upstream) (f : Frame) (restart : Bool) : Upstream :=
  { u with queue := u.queue ++ [⟨f, restart⟩], claimed := u.claimed - 1 }

/-- A reply placed. -/
def placeReply (r : Request) (res : Result) (count : Nat) (data : List Byte) (s : State) : State :=
  { s with blocks := { s.blocks with up := s.blocks.up.placeReply (replyFrame r res count data) false } }

/-- The agent holds the request no longer. -/
def finishRequest (s : State) : State := { s with agent := { s.agent with request := none } }

/-- The request held is answered, without data. -/
def answer (r : Request) (res : Result) (s : State) : State := finishRequest (placeReply r res 0 [] s)

/-- The request held is answered DONE with a count and data. -/
def answerWith (r : Request) (res : Result) (count : Nat) (data : List Byte) (s : State) : State :=
  finishRequest (placeReply r res count data s)

/-- An effect on the request held, where the row's test takes it; another request, or none, is left alone. -/
def onRequest (takes : Request → Bool) (f : Request → State → State) (s : State) : Host.Outcome State Fault Refusal :=
  whenRunning s fun x =>
    match x.agent.request with
    | some r => if takes r then f r x else x
    | none => x

/-- A row of one request code. -/
def onCode (code : Nat) : (Request → State → State) → State → Host.Outcome State Fault Refusal :=
  onRequest fun r => decide (r.code = code)

/-- The request codes of R12. -/
def codeRead : Nat := 1
def codeWrite : Nat := 2

/-! ## READ (R174) -/

/-- The entries one reply holds. -/
def entriesReturned (k : TableId) (count : Nat) : Nat := min count (Config.dataBytes / k.size)

def takeRead (r : Request) (s : State) : State :=
  match tableOf r.table with
  | none => answer r .badTable s
  | some k =>
    if k.entries < r.first + r.count then answer r .badIndex s
    else
      let n := entriesReturned k r.count
      answerWith r .done n ((List.range n).flatMap fun i => entryBytes s.tables s.blocks (r.first + i) k) s

/-! ## WRITE (R173, R175) -/

/-- The shared checks of a WRITE: rows 2 to 5 of R173. -/
def writeCheck (s : State) (r : Request) : Option Result :=
  if s.agent.commit.isSome then some .busy
  else
    match tableOf r.table with
    | none => some .badTable
    | some k =>
      if !storedTables.contains k then some .badTable
      else if k.entries < r.first + r.count then some .badIndex
      else if r.data.length < r.count * k.size then some .badValue
      else none

/-- A WRITE that fails a shared check is answered with it. -/
def takeBadWrite (r : Request) (s : State) : State :=
  match writeCheck s r with
  | some e => answer r e s
  | none => s

/-- The entries of a WRITE, each with its index and bytes. -/
def givenEntries (r : Request) (k : TableId) : List (Nat × List Byte) :=
  (List.range r.count).map fun i => (r.first + i, (r.data.drop (i * k.size)).take k.size)

/-- Every entry read, or `none` where one is refused. -/
def decodeAll {α : Type} (decode : Nat → List Byte → Option α) : List (Nat × List Byte) → Option (List (Nat × α))
  | [] => some []
  | e :: es =>
    match decode e.1 e.2, decodeAll decode es with
    | some x, some xs => some ((e.1, x) :: xs)
    | _, _ => none

/-- A WRITE of one table: the shared checks, then every entry's values, then what the request as a whole must meet, then what the
owner forbids; and then the entries one after another in index order, and what follows the whole request. -/
def takeWrite {α : Type} (k : TableId) (decode : Nat → List Byte → Option (α × Bool)) (meets : List (Nat × α) → Bool)
    (forbids : Nat → α → Bool) (apply : Nat → α → State → State) (finish : State → State) (r : Request) (s : State) : State :=
  match writeCheck s r with
  | some e => answer r e s
  | none =>
    match decodeAll decode (givenEntries r k) with
    | none => answer r .badValue s
    | some es =>
      let values := es.map fun e => (e.1, e.2.1)
      if !meets values then answer r .badValue s
      else if values.any fun e => forbids e.1 e.2 then answer r .refused s
      else answerWith r (if es.any fun e => e.2.2 then .doneClamped else .done) r.count []
        (finish (values.foldl (fun x e => apply e.1 e.2 x) s))

/-- A value that was not clamped. -/
def plainly {α : Type} (decode : Nat → List Byte → Option α) (i : Nat) (bs : List Byte) : Option (α × Bool) :=
  (decode i bs).map fun x => (x, false)

/-- No condition on the request as a whole. -/
def anyRequest {α : Type} (_ : List (Nat × α)) : Bool := true

/-- Nothing forbidden. -/
def nothingForbidden {α : Type} (_ : Nat) (_ : α) : Bool := false

/-- Whether a request is a WRITE of a table. -/
def writes (k : TableId) (r : Request) : Bool := decide (r.code = codeWrite) && decide (tableOf r.table = some k)

/-- The tables changed, and what the owner does about it. -/
def rewrite (t : Tables) (f : Blocks → Acts) (s : State) : State := actOn f { s with tables := t }

def applyRoute (i : Nat) (e : RouteEntry) (s : State) : State :=
  { s with tables := { s.tables with routes := s.tables.routes.set (Fin.ofNat 16 i) e } }

def applyPoll (b : Branch) (i : Nat) (e : PollEntry) (s : State) : State :=
  let n := Fin.ofNat 32 i
  let p := s.tables.polls.get b
  let t := { s.tables with polls := s.tables.polls.set b (p.set n e) }
  rewrite t (pollWritten t s.clock.round b n (p.get n).node) s

def applyChannel (i : Nat) (e : ChannelConfig) (s : State) : State :=
  let c := Fin.ofNat 16 i
  let t := { s.tables with channels := s.tables.channels.set c e }
  rewrite t (channelWritten t c (s.tables.channels.get c)) s

/-- An entry that changes the branch, node or value index of an enabled bound channel (R59, R177). -/
def channelForbidden (t : Tables) (i : Nat) (e : ChannelConfig) : Bool :=
  let k := t.channels.get (Fin.ofNat 16 i)
  decide (i < 12) && k.enabled && !decide (k.branch = e.branch ∧ k.node = e.node ∧ k.valueIndex = e.valueIndex)

def applyBind (i : Nat) (e : DriveBind) (s : State) : State :=
  let d := Fin.ofNat 24 i
  let t := { s.tables with binds := s.tables.binds.set d e }
  if s.tables.binds.get d = e then s else rewrite t (driveRebound t d) s

/-- An entry that changes the binding of a drive that is not OFF (R77, R177). -/
def bindForbidden (t : Tables) (i : Nat) (e : DriveBind) : Bool :=
  let d := Fin.ofNat 24 i
  decide (t.binds.get d ≠ e) && decide ((t.shapes.get d).mode ≠ .off)

def applyShape (i : Nat) (e : DriveShape) (s : State) : State :=
  let d := Fin.ofNat 24 i
  let old := s.tables.shapes.get d
  let t := { s.tables with shapes := s.tables.shapes.set d e }
  if old = e then s else rewrite t (driveReshaped t d (decide (old.mode ≠ e.mode))) s

def applyLimit (i : Nat) (e : DriveLimit) (s : State) : State :=
  let d := Fin.ofNat 24 i
  let old := s.tables.limits.get d
  let t := { s.tables with limits := s.tables.limits.set d e }
  if old = e then s else rewrite t (driveRelimited t d (decide (old.rated ≠ e.rated))) s

def applyCurve (i : Nat) (level : Nat) (s : State) : State :=
  let c := Fin.ofNat 8 (i / 32)
  { s with tables := { s.tables with
      curves := s.tables.curves.set c ((s.tables.curves.get c).set (Fin.ofNat 32 (i % 32)) level) } }

/-- After a whole CURVE request, each AUTO drive on a curve with a changed point is recomputed, in drive order (R81). -/
def curvesWritten (old : Tables) (s : State) : State :=
  actOn (fun g => (g, ((indices 24).filter fun d =>
    let k := s.tables.shapes.get d
    decide (k.mode = .auto) && decide (old.curves.get k.curve ≠ s.tables.curves.get k.curve)).map fun d => .recompute d none)) s

def applyCue (i : Nat) (e : CueConfig) (s : State) : State :=
  let c := Fin.ofNat 64 i
  let t := { s.tables with cues := s.tables.cues.set c e }
  rewrite t (fun g => done (cueWritten t c (s.tables.cues.get c) g)) s

def applyZone (i : Nat) (e : ZoneConfig) (s : State) : State :=
  let z := Fin.ofNat 32 i
  let t := { s.tables with zones := s.tables.zones.set z e }
  rewrite t (zoneWritten t z (s.tables.zones.get z)) s

/-- A pointer at or beyond the active length becomes 0 (R153). -/
def keepPointer (length : Nat) (g : Blocks) : Blocks :=
  if length ≤ g.mowers.pointer then { g with mowers := { g.mowers with pointer := 0 } } else g

def applyRotation (i : Nat) (e : RotationEntry) (s : State) : State :=
  match e with
  | .zone z => { s with tables := { s.tables with rotation := s.tables.rotation.set (Fin.ofNat 64 i) z } }
  | .length n => { s with tables := { s.tables with rotationLength := n }, blocks := keepPointer n s.blocks }

def applyMower (i : Nat) (e : MowerConfig) (s : State) : State :=
  let m := Fin.ofNat 4 i
  let t := { s.tables with mowers := s.tables.mowers.set m e }
  rewrite t (mowerWritten s.tables t m) s

/-- An entry that changes the branch or an address of an enabled record (R151, R177). -/
def mowerForbidden (t : Tables) (i : Nat) (e : MowerConfig) : Bool :=
  let k := t.mowers.get (Fin.ofNat 4 i)
  k.enabled && !decide (k.branch = e.branch ∧ k.node = e.node ∧ k.dock = e.dock)

/-- The mower records a request would leave. -/
def mowersAfter (t : Tables) (es : List (Nat × MowerConfig)) : Table MowerConfig 4 :=
  es.foldl (fun ms e => ms.set (Fin.ofNat 4 e.1) e.2) t.mowers

/-- Whether no two enabled records have an address in common (R151). -/
def addressesApart (ms : Table MowerConfig 4) : Bool :=
  (indices 4).all fun i => (indices 4).all fun j =>
    let x := ms.get i
    let y := ms.get j
    decide (i = j) || !x.enabled || !y.enabled ||
      !(decide (x.node = y.node) || decide (x.node = y.dock) || decide (x.dock = y.node) || decide (x.dock = y.dock))

/-- The branch of a SUPPLY entry (R15). -/
def supplyBranch (i : Nat) : Branch := if i = 0 then .branchA else .branchB

def applySupply (i : Nat) (e : SupplyConfig) (s : State) : State :=
  let b := supplyBranch i
  let t := { s.tables with supply := s.tables.supply.set b e }
  rewrite t (budgetChanged t b (s.blocks.slu.effective s.tables b)) s

/-- The Zone Unit's part, and then the Mower Dispatcher's (R137, R154). -/
def applyGlobal (_ : Nat) (e : GlobalConfig) (s : State) : State :=
  let old := s.tables.globals
  let t := { s.tables with globals := e }
  let s₁ := rewrite t (globalsWritten t old) s
  if old.ambientChannel = e.ambientChannel then s₁ else actOn (ambientFieldWritten t) s₁

/-! ## Control requests (R178) -/

/-- A request whose first index is out of range, or whose data are too few or out of range, is BAD-VALUE. -/
def badValueUnless {α : Type} (x : Option α) (f : α → Request → State → State) (r : Request) (s : State) : State :=
  match x with
  | some a => f a r s
  | none => answer r .badValue s

/-- The requests carried out and answered DONE. -/
def andDone (f : State → State) (r : Request) (s : State) : State := answer r .done (f s)

/-- SET-MODE's effect (R83). -/
def setDriveMode (d : Fin 24) (mode : DriveMode) (level : Nat) (s : State) : State :=
  let shape := s.tables.shapes.get d
  let t := { s.tables with shapes := s.tables.shapes.set d { shape with mode := mode } }
  rewrite t (fun g =>
    recompute t d none (writeManualLevel t d level (g.setDrive d { g.drive d with overMax := false }))) s

/-- SET-MODE's operands: a drive, a mode and a manual level. -/
def modeOperands (r : Request) : Option (Fin 24 × DriveMode × Nat) :=
  match toFin? 24 r.first, r.data with
  | some d, mode :: level :: _ => (modeOf mode).map fun m => (d, m, level.toNat)
  | _, _ => none

/-- CLEAR-LATCHED (R72). -/
def takeClearLatched (r : Request) (s : State) : State :=
  if 15 < r.first then answer r .badValue s
  else if 16 < r.first + r.count then answer r .badIndex s
  else answer r .done { s with
    blocks := (List.range r.count).foldl (fun g i => clearLatched (Fin.ofNat 16 (r.first + i)) g) s.blocks }

/-- RESET-TRIP (R93): whether it is refused, and the drive recomputed either way. -/
def resetTrip (d : Fin 24) (r : Request) (s : State) : State :=
  let g := s.blocks
  if (g.drive d).tripped = true ∧ tripFlag s.tables g d none = true then
    answer r .refused (actOn (recompute s.tables d none) s)
  else
    answer r .done (actOn (fun h => recompute s.tables d none (h.setDrive d { h.drive d with tripped := false })) s)

/-- TRIP-DRIVE (R93). DRIVE-TRIPPED is posted before what the recomputation sets off, which is the model's choice
(notes/assumptions/39.md). -/
def tripDrive (d : Fin 24) (s : State) : State :=
  actOn (fun g =>
    let x := g.drive d
    let g' := g.setDrive d { x with tripped := true }
    recompute s.tables d none (if x.tripped then g' else g'.post .driveTripped d.val (-1) 0)) s

/-- The branch a request names. -/
def namedBranch (r : Request) : Option Branch :=
  if r.first = 0 then some .branchA else if r.first = 1 then some .branchB else none

/-- RESTORE-BRANCH (R104). -/
def takeRestore (b : Branch) (r : Request) (s : State) : State :=
  let x := s.blocks.slu.supply.get b
  if x.state = .on then answer r .done s
  else if x.coolEnd.reached s.clock.round then answer r .done (actOn (becomeOn s.tables b) s)
  else answer r .tooSoon s

/-- BRANCH-OFF (R105). -/
def branchOffEffect (b : Branch) (s : State) : State :=
  let x := s.blocks.slu.supply.get b
  match x.state with
  | .on => actOn (switchOff s.tables b) s
  | .off => { s with blocks := s.blocks.setSlu (s.blocks.slu.setSupply b { x with armed := false }) }
  | .tripped => { s with blocks := s.blocks.setSlu (s.blocks.slu.setSupply b { x with state := .off }) }

/-- ZONE-VETO's operands: a zone, and whether it sets. -/
def vetoOperands (r : Request) : Option (Fin 32 × Bool) :=
  match toFin? 32 r.first, r.data with
  | some z, x :: _ => if x = 1 then some (z, true) else if x = 0 then some (z, false) else none
  | _, _ => none

/-- CLEAR-MOWER (R170). -/
def takeClearMower (m : Fin 4) (r : Request) (s : State) : State :=
  if (s.blocks.mower m).state = .lost then answer r .done (actOn (clearLost s.tables m) s) else answer r .refused s

/-! ## The store (R180, R181) -/

/-- STORE: BUSY during a commit, else a commit begins and its reply is held. -/
def takeStore (r : Request) (s : State) : State :=
  if s.agent.commit.isSome then answer r .busy s
  else finishRequest { s with agent := { s.agent with
    commit := some ⟨s.tables, 0, r⟩, imageValid := false, image := { s.agent.image with mark := false } } }

/-- The commit completes: the CRC-16 and then the mark are written, and DONE is placed. -/
def completeCommit (c : Commit) (s : State) : State :=
  placeReply c.request .done 0 []
    { s with agent := { s.agent with commit := none, imageValid := true, image := Image.committed c.snapshot } }

/-- The commit fails: the image stays invalid, and REFUSED is placed. -/
def failCommit (c : Commit) (s : State) : State :=
  placeReply c.request .refused 0 [] { s with agent := { s.agent with commit := none, imageValid := false } }

/-- The part written at a round start, and whether it reads back (R180). -/
def commitPart (readsBack : Bool) (s : State) : State :=
  match s.agent.commit with
  | none => s
  | some c =>
    if readsBack then
      if 8 ≤ c.parts + 1 then completeCommit c s
      else { s with agent := { s.agent with commit := some { c with parts := c.parts + 1 } } }
    else failCommit c s

/-! ## Identity, status and restart (R13, R182, R183) -/

def identityBytes : List Byte :=
  bytes16 Config.vendorCode ++ bytes16 Config.partCode ++ [1] ++ Config.capacities.map byteOf

/-- The 20 bytes of STATUS; byte 2 is the island record as the request's last byte arrived. -/
def statusBytes (r : Request) (s : State) : List Byte :=
  let g := s.blocks
  [byteOf (g.supplyState .branchA).code, byteOf (g.supplyState .branchB).code, yesNo r.island, yesNo g.mowers.held,
    bitsByte ((indices 4).map g.cues.running.get), yesNo g.lines.forA.queueFullSeen, yesNo g.lines.forB.queueFullSeen,
    yesNo s.agent.commit.isSome, yesNo s.agent.imageValid, byteOf g.up.lost] ++
    bytes16 s.trunk.errors ++ bytes16 s.trunk.formats ++ bytes16 s.trunk.overflows ++
    (indices 4).map fun m => byteOf (g.mower m).state.code

/-- The sticky flags are cleared. -/
def clearSticky (g : Blocks) : Blocks :=
  { g with lines := ⟨{ g.lines.forA with queueFullSeen := false }, { g.lines.forB with queueFullSeen := false }⟩ }

def takeStatus (r : Request) (s : State) : State :=
  answerWith r .done 0 (statusBytes r s) { s with blocks := clearSticky s.blocks }

/-- RESTART: BUSY during a commit, else its reply is placed and the router takes no further frame. -/
def takeRestart (r : Request) (s : State) : State :=
  if s.agent.commit.isSome then answer r .busy s
  else
    { s with
      agent := { s.agent with request := none, restart := .replying }
      blocks := { s.blocks with up := s.blocks.up.placeReply (replyFrame r .done 0 []) true } }

/-! ## The rows -/

/-- BAD_REQUEST_CODE (R12, R173). -/
def execBadRequestCode (s : State) : Host.Outcome State Fault Refusal :=
  onRequest (fun r => decide (r.code = 0) || decide (19 < r.code)) (fun r => answer r .badValue) s

/-- READ (R174). -/
def execRead (s : State) : Host.Outcome State Fault Refusal := onCode codeRead takeRead s

/-- WRITE that fails a shared check (R173, R175). -/
def execWrite (s : State) : Host.Outcome State Fault Refusal := onCode codeWrite takeBadWrite s

/-- WRITE of ROUTE (R46). -/
def execWriteRoute (s : State) : Host.Outcome State Fault Refusal :=
  onRequest (writes .route) (takeWrite .route (plainly fun _ => decodeRoute) anyRequest nothingForbidden applyRoute id) s

/-- WRITE of POLL-A or POLL-B (R30). -/
def execWritePoll (s : State) : Host.Outcome State Fault Refusal :=
  onRequest (fun r => writes .pollA r || writes .pollB r) (fun r =>
    if writes .pollA r then
      takeWrite .pollA (plainly fun _ => decodePoll) anyRequest nothingForbidden (applyPoll .branchA) id r
    else takeWrite .pollB (plainly fun _ => decodePoll) anyRequest nothingForbidden (applyPoll .branchB) id r) s

/-- WRITE of CHANNEL (R59, R60, R69). -/
def execWriteChannel (s : State) : Host.Outcome State Fault Refusal :=
  onRequest (writes .channel)
    (takeWrite .channel (plainly decodeChannel) anyRequest (channelForbidden s.tables) applyChannel id) s

/-- WRITE of DRIVE-BIND (R76, R77). -/
def execWriteDriveBind (s : State) : Host.Outcome State Fault Refusal :=
  onRequest (writes .driveBind)
    (takeWrite .driveBind (plainly fun _ => decodeBind) anyRequest (bindForbidden s.tables) applyBind id) s

/-- WRITE of DRIVE-SHAPE (R78). -/
def execWriteDriveShape (s : State) : Host.Outcome State Fault Refusal :=
  onRequest (writes .driveShape)
    (takeWrite .driveShape (plainly fun _ => decodeShape) anyRequest nothingForbidden applyShape id) s

/-- WRITE of DRIVE-LIMIT (R79). -/
def execWriteDriveLimit (s : State) : Host.Outcome State Fault Refusal :=
  onRequest (writes .driveLimit)
    (takeWrite .driveLimit (fun _ => decodeLimit) anyRequest nothingForbidden applyLimit id) s

/-- WRITE of CURVE (R81). -/
def execWriteCurve (s : State) : Host.Outcome State Fault Refusal :=
  onRequest (writes .curve)
    (takeWrite .curve (plainly fun _ => decodeLevel) anyRequest nothingForbidden applyCurve (curvesWritten s.tables)) s

/-- WRITE of CUE (R121). -/
def execWriteCue (s : State) : Host.Outcome State Fault Refusal :=
  onRequest (writes .cue) (takeWrite .cue (plainly fun _ => decodeCue) anyRequest nothingForbidden applyCue id) s

/-- WRITE of ZONE (R136, R147). -/
def execWriteZone (s : State) : Host.Outcome State Fault Refusal :=
  onRequest (writes .zone) (takeWrite .zone (plainly fun _ => decodeZone) anyRequest nothingForbidden applyZone id) s

/-- WRITE of ROTATION (R153). -/
def execWriteRotation (s : State) : Host.Outcome State Fault Refusal :=
  onRequest (writes .rotation)
    (takeWrite .rotation (plainly decodeRotation) anyRequest nothingForbidden applyRotation id) s

/-- WRITE of MOWER (R151). -/
def execWriteMower (s : State) : Host.Outcome State Fault Refusal :=
  onRequest (writes .mower)
    (takeWrite .mower (plainly fun _ => decodeMower) (fun es => addressesApart (mowersAfter s.tables es))
      (mowerForbidden s.tables) applyMower id) s

/-- WRITE of SUPPLY (R108). -/
def execWriteSupply (s : State) : Host.Outcome State Fault Refusal :=
  onRequest (writes .supply) (takeWrite .supply (fun _ => decodeSupply) anyRequest nothingForbidden applySupply id) s

/-- WRITE of GLOBAL (R137, R154, R176). -/
def execWriteGlobal (s : State) : Host.Outcome State Fault Refusal :=
  onRequest (writes .globals) (takeWrite .globals (fun _ => decodeGlobal) anyRequest nothingForbidden applyGlobal id) s

/-- SET-MODE (R83). -/
def execSetMode (s : State) : Host.Outcome State Fault Refusal :=
  onCode 3 (fun r => badValueUnless (modeOperands r) (fun x => andDone (setDriveMode x.1 x.2.1 x.2.2)) r) s

/-- SHOW-START (R122). -/
def execShowStart (s : State) : Host.Outcome State Fault Refusal :=
  onCode 4 (fun r => badValueUnless (toFin? 4 r.first)
    (fun sh => andDone fun x => { x with blocks := startShow x.tables sh x.blocks }) r) s

/-- SHOW-STOP (R123). -/
def execShowStop (s : State) : Host.Outcome State Fault Refusal :=
  onCode 5 (fun r => badValueUnless (toFin? 4 r.first)
    (fun sh => andDone fun x => { x with blocks := stopShow x.tables sh x.blocks }) r) s

/-- CLEAR-LATCHED (R72). -/
def execClearLatched (s : State) : Host.Outcome State Fault Refusal := onCode 6 takeClearLatched s

/-- RESET-TRIP (R93). -/
def execResetTrip (s : State) : Host.Outcome State Fault Refusal :=
  onCode 7 (fun r => badValueUnless (toFin? 24 r.first) resetTrip r) s

/-- TRIP-DRIVE (R93). -/
def execTripDrive (s : State) : Host.Outcome State Fault Refusal :=
  onCode 8 (fun r => badValueUnless (toFin? 24 r.first) (fun d => andDone (tripDrive d)) r) s

/-- RESTORE-BRANCH (R104). -/
def execRestoreBranch (s : State) : Host.Outcome State Fault Refusal :=
  onCode 9 (fun r => badValueUnless (namedBranch r) takeRestore r) s

/-- BRANCH-OFF (R105). -/
def execBranchOff (s : State) : Host.Outcome State Fault Refusal :=
  onCode 10 (fun r => badValueUnless (namedBranch r) (fun b => andDone (branchOffEffect b)) r) s

/-- HOLD (R169). -/
def execHold (s : State) : Host.Outcome State Fault Refusal :=
  onCode 11 (andDone fun x => { x with blocks := holdGate x.blocks }) s

/-- RECALL (R169). -/
def execRecall (s : State) : Host.Outcome State Fault Refusal := onCode 12 (andDone (actOn recallAll)) s

/-- RESUME (R169). -/
def execResume (s : State) : Host.Outcome State Fault Refusal := onCode 13 (andDone (actOn (resumeGate s.tables))) s

/-- ZONE-VETO (R143). -/
def execZoneVeto (s : State) : Host.Outcome State Fault Refusal :=
  onCode 14 (fun r => badValueUnless (vetoOperands r) (fun x => andDone (actOn (setManualVeto x.1 x.2))) r) s

/-- CLEAR-MOWER (R170). -/
def execClearMower (s : State) : Host.Outcome State Fault Refusal :=
  onCode 15 (fun r => badValueUnless (toFin? 4 r.first) takeClearMower r) s

/-- STORE (R180). -/
def execStore (s : State) : Host.Outcome State Fault Refusal := onCode 16 takeStore s

/-- The eighth part reads back correctly: the commit completes (R180). -/
def execStoreCommitComplete (s : State) : Host.Outcome State Fault Refusal :=
  whenRunning s fun x =>
    match x.agent.commit with
    | some c => if 8 ≤ c.parts + 1 then completeCommit c x else x
    | none => x

/-- A part reads back wrong: the commit fails (R180). -/
def execStoreCommitFail (s : State) : Host.Outcome State Fault Refusal :=
  whenRunning s fun x =>
    match x.agent.commit with
    | some c => failCommit c x
    | none => x

/-- IDENTIFY (R182). -/
def execIdentify (s : State) : Host.Outcome State Fault Refusal :=
  onCode 17 (fun r => answerWith r .done 0 identityBytes) s

/-- STATUS (R182). -/
def execStatus (s : State) : Host.Outcome State Fault Refusal := onCode 18 takeStatus s

/-- RESTART (R183). -/
def execRestart (s : State) : Host.Outcome State Fault Refusal := onCode 19 takeRestart s

end Sys2Proof.Machine
end

