-- ==== Sys2Proof/Machine/Trunk.lean ====
section
/-! DEFINITION. The Trunk Port (R40–R45, R185–R187): what its receiver finds, the receive FIFO and the router's taking from it, the
transmitter, and island operation. -/

namespace Sys2Proof.Machine

/-! ## The transmitter (R45) -/

/-- A NOTICE with the lost-notice count written into it (R14, R45). -/
def stampNotice (lost : Nat) (f : Frame) : Frame := { f with payload := f.payload.set 6 (byteOf lost) }

/-- The transmitter starts a frame: a NOTICE takes the lost-notice count, which becomes 0. -/
def startFrame (x : UpFrame) (rest : List UpFrame) (s : State) : State :=
  if x.frame.kind = kindNotice then
    let f := stampNotice s.blocks.up.lost x.frame
    { s with
      trunk := { s.trunk with transmitting := some f.encode }
      blocks := { s.blocks with up := { s.blocks.up with queue := { x with frame := f } :: rest, lost := 0 } } }
  else { s with trunk := { s.trunk with transmitting := some x.frame.encode } }

/-- While not in ISLAND, the idle transmitter starts the oldest frame held. -/
def txStart (s : State) : State :=
  if s.trunk.island = true ∨ s.trunk.transmitting.isSome = true then s
  else
    match s.blocks.up.queue with
    | x :: rest => startFrame x rest s
    | [] => s

/-- The last check byte has been sent, and the frame leaves the queue; a RESTART's reply leads to start-up (R183). -/
def txDone (s : State) : State :=
  if s.trunk.transmitting.isSome then
    let restarts := (s.blocks.up.queue.head?.map UpFrame.restart).getD false
    { s with
      trunk := { s.trunk with transmitting := none }
      blocks := { s.blocks with up := { s.blocks.up with queue := s.blocks.up.queue.tail } }
      agent := { s.agent with restart := if restarts then .replied else s.agent.restart } }
  else s

/-! ## Island (R185–R187) -/

/-- The part enters ISLAND (R186). -/
def enterIsland (s : State) : State :=
  actOn (setIsland s.tables true) { s with
    trunk := { s.trunk with silenceTimer := 0, island := true, islandRounds := 0 }
    blocks := s.blocks.post .islandBegun 0 s.trunk.timeoutInForce 0 }

/-- A good frame ends ISLAND (R187). -/
def endIsland (s : State) : State :=
  txStart (actOn (setIsland s.tables false) { s with
    trunk := { s.trunk with island := false }
    blocks := s.blocks.post .islandEnded 0 s.trunk.islandRounds 0 })

/-- A round start at the silence timer (R185, R186). -/
def silenceRound (s : State) : State :=
  if s.trunk.island then { s with trunk := { s.trunk with islandRounds := satInc 32767 s.trunk.islandRounds } }
  else if s.trunk.silenceTimer ≤ 1 then enterIsland s
  else { s with trunk := { s.trunk with silenceTimer := s.trunk.silenceTimer - 1 } }

/-! ## The receiver (R3, R40, R41) -/

/-- A good frame joins the FIFO with the island record as its last byte arrived, or is dropped and counted. -/
def joinFifo (f : Frame) (island : Bool) (s : State) : State :=
  if s.trunk.fifo.length < Config.fifoPlaces then
    { s with trunk := { s.trunk with fifo := s.trunk.fifo ++ [⟨f, island⟩] } }
  else { s with trunk := { s.trunk with overflows := satInc Config.count16 s.trunk.overflows } }

/-- A good trunk frame (R40, R187). -/
def trunkGood (f : Frame) (s : State) : State :=
  let wasIsland := s.trunk.island
  let timeout := s.tables.globals.silenceTimeout
  let s₁ := { s with trunk := { s.trunk with silenceTimer := timeout, timeoutInForce := timeout } }
  joinFifo f wasIsland (if wasIsland then endIsland s₁ else s₁)

/-- A start, over-length or check fault (R40). -/
def trunkFaulty (s : State) : State := { s with trunk := { s.trunk with errors := satInc Config.count16 s.trunk.errors } }

/-- What the receiver found, handled. -/
def takeEvent (s : State) : RxEvent → State
  | .good f => trunkGood f s
  | .startFault => trunkFaulty s
  | .overLength => trunkFaulty s
  | .checkFault => trunkFaulty s

/-- The receiver takes a run of bytes, and what it finds is handled in order. -/
def receive (bytes : List RxByte) (s : State) : State :=
  let p := s.trunk.receiver.takeAll bytes
  p.2.foldl takeEvent { s with trunk := { s.trunk with receiver := p.1 } }

/-- 250 ms without a byte (R3). -/
def trunkSilence (s : State) : State :=
  let s' := { s with trunk := { s.trunk with receiver := .hunting false } }
  match s.trunk.receiver.silence with
  | some e => takeEvent s' e
  | none => s'

/-! ## The router takes a frame (R41–R43) -/

/-- The FIFO's oldest frame leaves it. -/
def popFifo (rest : List FifoEntry) (s : State) : State := { s with trunk := { s.trunk with fifo := rest } }

/-- A MANAGE frame goes to the agent with a place claimed for its reply, or waits (R41, R43). -/
def passRequest (e : FifoEntry) (rest : List FifoEntry) (s : State) : State :=
  if s.blocks.up.inUse < Config.upstreamPlaces then
    popFifo rest { s with
      agent := { s.agent with request := requestOf e }
      blocks := { s.blocks with up := { s.blocks.up with claimed := s.blocks.up.claimed + 1 } } }
  else s

/-- The router takes the oldest frame, once it and the agent have finished with the one before and no RESTART has been taken. -/
def takeTrunkFrame (s : State) : State :=
  if s.agent.request.isSome = true ∨ s.agent.restart ≠ .none then s
  else
    match s.trunk.fifo with
    | [] => s
    | e :: rest =>
      match screen e.frame with
      | .formatFault =>
        { s with trunk := { s.trunk with fifo := rest, formats := satInc Config.count16 s.trunk.formats } }
      | .manage => passRequest e rest s
      | .route => actOn (routeFrame s.tables e.frame) (popFifo rest s)

/-! ## The rows -/

/-- TRUNK_GOOD_FRAME (R3, R40, R187). -/
def execTrunkGoodFrame (bytes : List RxByte) (s : State) : Host.Outcome State Fault Refusal := whenRunning s (receive bytes)

/-- TRUNK_FAULT (R3, R40). -/
def execTrunkFault (bytes : List RxByte) (s : State) : Host.Outcome State Fault Refusal := whenRunning s (receive bytes)

/-- TRUNK_BYTE_TIMEOUT (R3, R40). -/
def execTrunkByteTimeout (bytes : List RxByte) (s : State) : Host.Outcome State Fault Refusal :=
  whenRunning s fun x => trunkSilence (receive bytes x)

/-- FR_TAKE_TRUNK_FRAME (R41–R52). -/
def execFrTakeTrunkFrame (s : State) : Host.Outcome State Fault Refusal := whenRunning s takeTrunkFrame

/-- TRUNK_TX_START (R45). -/
def execTrunkTxStart (s : State) : Host.Outcome State Fault Refusal := whenRunning s txStart

/-- TRUNK_TX_DONE (R45). -/
def execTrunkTxDone (s : State) : Host.Outcome State Fault Refusal := whenRunning s txDone

/-- ISLAND_BEGUN: the Trunk Port's share of the round start that brings the silence timer to 0 (R185, R186). -/
def execIslandBegun (s : State) : Host.Outcome State Fault Refusal :=
  whenRunning s fun x => if x.trunk.island = false ∧ x.trunk.silenceTimer ≤ 1 then silenceRound x else x

end Sys2Proof.Machine
end

