-- ==== Sys2Proof/Machine/Rounds.lean ====
section
/-! DEFINITION. Round starts (R18): ROUND_START, which does every block's work of a round start, and the rows that name one item coming
to its end, each the owning block's share of the next round start for that item (notes/assumptions/7.md). -/

namespace Sys2Proof.Machine

/-! ## ROUND_START -/

/-- A branch's records as a round starts: stored rounds follow the counter (R18), and the slots of the round before are forgotten. -/
def Line.newRound (now : Round) (l : Line) : Line :=
  { l with
    polls := l.polls.map fun x => { x with nextDue := x.nextDue.tick now }
    sentIn := none
    answeredIn := none
    idleIn := none }

/-- A supply record as a round starts. -/
def Supply.newRound (now : Round) (x : Supply) : Supply := { x with coolEnd := x.coolEnd.tick now }

/-- The stored rounds of every block as a round starts. -/
def Blocks.newRound (now : Round) (g : Blocks) : Blocks :=
  { g with
    lines := ⟨g.lines.forA.newRound now, g.lines.forB.newRound now⟩
    forwards := g.forwards.map fun x => { x with round := x.round.map (StoredRound.tick now) }
    slu := { g.slu with supply := ⟨g.slu.supply.forA.newRound now, g.slu.supply.forB.newRound now⟩ } }

/-- The round counter advances, and the slot index is 0. -/
def advanceRound (s : State) : State :=
  let now := s.clock.round + 1
  { s with clock := ⟨now, 0⟩, blocks := s.blocks.newRound now }

/-- The work of a round start, block by block (R64, R65, R97, R106, R140, R150, R159, R163, R165; the order is the model's). -/
def roundTasks (samples : Samples) (g : Blocks) : List Task :=
  (indices 12).map Task.ageChannel ++ sampleTasks g samples ++ (indices 24).map Task.ageDrive ++
    [.autoOn .branchA, .autoOn .branchB, .dryOffRound] ++ (indices 32).map Task.holdRound ++
    (indices 4).map Task.homeRound ++ (indices 4).map Task.stintRound ++ (indices 4).map Task.retryRound

/-- ROUND_START (R18). -/
def execRoundStart (samples : Samples) (readsBack : Bool) (s : State) : Host.Outcome State Fault Refusal :=
  whenRunning s fun x =>
    actOn (fun g => (g, roundTasks samples g)) (commitPart readsBack (silenceRound (advanceRound x)))

/-! ## One item coming to its end -/

/-- A block's share of the next round start for one item, where the item is about to end. -/
def share (ends : State → Bool) (e : Task) (s : State) : Host.Outcome State Fault Refusal :=
  whenRunning s fun x => if ends x then actOn (fun g => (g, [e])) x else x

/-- The channel of a branch's current (R58). -/
def currentChannel : Branch → Fin 4
  | .branchA => 0
  | .branchB => 1

/-- Whether a current sample is the fourth in a row with HIGH-ALARM live (R102). -/
def tripsOn (b : Branch) (v : Int) (s : State) : Bool :=
  let c := internalChannel (currentChannel b)
  s.blocks.isOn b && decide (Config.samplesToTrip ≤ (s.blocks.slu.supply.get b).tripCount + 1) &&
    (evaluateFlags (s.tables.channels.get c) v (s.blocks.channel c).live).highAlarm

/-- BRANCH_TRIP: the sample is taken, and its report trips the branch (R64, R102, R103). The cool-down counts from the round counter as
the row finds it, which is the model's choice (notes/assumptions/7.md). -/
def execBranchTrip (b : Branch) (sample : Nat) (s : State) : Host.Outcome State Fault Refusal :=
  share (tripsOn b (min 3000 sample : Nat)) (.sample (currentChannel b) (min 3000 sample : Nat)) s

/-- AUTO_ON (R106): the next round start reaches the cool-down end of an armed branch. -/
def execAutoOn (b : Branch) (s : State) : Host.Outcome State Fault Refusal :=
  whenRunning s fun x =>
    { x with blocks := settleActs x.tables x.clock.round (autoOnRound x.tables (x.clock.round + 1) b x.blocks) }

/-- Whether the next round start makes a bound channel stale (R65). -/
def goesStale (c : Fin 12) (s : State) : Bool :=
  let x := s.blocks.channel (boundChannel c)
  decide (x.state = .fresh) && decide ((s.tables.channels.get (boundChannel c)).staleLimit ≤ satInc Config.count16 x.rounds)

/-- CHANNEL_STALE (R65). -/
def execChannelStale (c : Fin 12) (s : State) : Host.Outcome State Fault Refusal := share (goesStale c) (.ageChannel c) s

/-- Whether the next round start makes a drive's refresh due (R97). -/
def refreshFalls (d : Fin 24) (s : State) : Bool :=
  let x := s.blocks.drive d
  s.tables.bound d && !x.unpowered &&
    refreshDue (s.tables.limits.get d) { x with roundsSinceSend := satInc Config.count8 x.roundsSinceSend }

/-- REFRESH_DUE (R97). -/
def execRefreshDue (d : Fin 24) (s : State) : Host.Outcome State Fault Refusal := share (refreshFalls d) (.ageDrive d) s

/-- RETRY_TIMER_EXPIRY (R159). -/
def execRetryTimerExpiry (m : Fin 4) (s : State) : Host.Outcome State Fault Refusal :=
  share (fun x => decide ((x.blocks.mower m).retry = 1)) (.retryRound m) s

/-- STINT_EXPIRY (R163). -/
def execStintExpiry (m : Fin 4) (s : State) : Host.Outcome State Fault Refusal :=
  share (fun x => decide ((x.blocks.mower m).state = .mowing) && decide ((x.blocks.mower m).stint = 1)) (.stintRound m) s

/-- DRY_OFF_EXPIRY (R140). -/
def execDryOffExpiry (s : State) : Host.Outcome State Fault Refusal :=
  share (fun x => decide (x.blocks.zones.rain = .drying) && decide (x.blocks.zones.dryOffRemaining ≤ 1)) .dryOffRound s

/-- TRANSIT_HOLD_EXPIRY (R150). -/
def execTransitHoldExpiry (z : Fin 32) (s : State) : Host.Outcome State Fault Refusal :=
  share (fun x => decide ((x.blocks.zone z).light = .holding) && decide ((x.blocks.zone z).holdRemaining ≤ 1)) (.holdRound z) s

end Sys2Proof.Machine
end

