-- ==== Sys2Proof/Machine/Slots.lean ====
section
/-! DEFINITION. The commands of the branch lines: slot starts, the draw and the resolution of cues, echoes, answer slots and
unsolicited frames (R18, R24–R37, R124–R133). -/

namespace Sys2Proof.Machine

/-! ## Line time (R18) -/

/-- A slot ends: the slot index advances by 1. After slot 49 it stands until the round start returns it to 0. -/
def Clock.slotEnds (c : Clock) : Clock := if h : c.slot.val + 1 < 50 then { c with slot := ⟨c.slot.val + 1, h⟩ } else c

/-- `n` slots end, one after another. -/
def Clock.slotsEnd : Nat → Clock → Clock
  | 0, c => c
  | n + 1, c => Clock.slotsEnd n c.slotEnds

/-- As many slots end as bring the slot index to a slot; none where it stands there or beyond. -/
def Clock.advanceTo (slot : Fin 50) (c : Clock) : Clock := c.slotsEnd (slot.val - c.slot.val)

/-- The part as a slot's time comes. -/
def atSlot (slot : Fin 50) (s : State) : State := { s with clock := s.clock.advanceTo slot }

/-- A command of a slot start, while the part runs: it comes with its slot, and has no effect once that slot of the round is past, for the
slot index returns to 0 at a round start alone (notes/assumptions/10.md). -/
def onSlot (slot : Fin 50) (f : State → State) (s : State) : Host.Outcome State Fault Refusal :=
  whenRunning s fun x => if x.clock.slot ≤ slot then f (atSlot slot x) else x

/-- A branch's answer slot has come where its frame was sent in the slot before: the slot index is brought to it. -/
def atAnswerSlot (b : Branch) (s : State) : State :=
  match (s.blocks.line b).exchange, (s.blocks.line b).sending with
  | some x, none => if s.clock.slot.val + 1 = x.answerSlot.val then atSlot x.answerSlot s else s
  | _, _ => s

/-- A general slot among the fifty. -/
def generalIndex (o : Fin 40) : Fin 50 := ⟨o.val, by omega⟩

/-- The poll slot of a pair: 40, 42, 44, 46 or 48 (R19). -/
def pollIndex (pair : Fin 5) : Fin 50 := ⟨40 + 2 * pair.val, by omega⟩

/-- The slot at which a slot offset is resolved: two slots before it (R125). -/
def resolveIndex (o : Fin 40) : Fin 50 := ⟨(o.val + 48) % 50, by omega⟩

/-- GENERAL_SLOT (R24, R130, R131, R133). -/
def execGeneralSlot (b : Branch) (o : Fin 40) (s : State) : Host.Outcome State Fault Refusal :=
  onSlot (generalIndex o) (fun x => actOn (fun g => done (generalSlot x.tables b (generalIndex o) g)) x) s

/-- POLL_SLOT (R32). -/
def execPollSlot (b : Branch) (pair : Fin 5) (s : State) : Host.Outcome State Fault Refusal :=
  onSlot (pollIndex pair) (fun x => actOn (fun g => done (pollSlot x.tables x.clock.round b (pollIndex pair) g)) x) s

/-- CUE_DRAW (R124). -/
def execCueDraw (s : State) : Host.Outcome State Fault Refusal :=
  onSlot 48 (fun x => actOn (fun g => done (drawRound x.tables g)) x) s

/-- CUE_RESOLVE (R125–R129). -/
def execCueResolve (b : Branch) (o : Fin 40) (s : State) : Host.Outcome State Fault Refusal :=
  onSlot (resolveIndex o) (fun x => actOn (resolveSlot x.tables b o) x) s

/-- ECHO_JUDGED (R35, R36). -/
def execEchoJudged (b : Branch) (echo : List RxByte) (s : State) : Host.Outcome State Fault Refusal :=
  whenRunning s fun x => actOn (judgeEcho x.tables b echo) x

/-- ANSWER_SLOT_JUDGED (R29, R33), in or after the answer slot. -/
def execAnswerSlotJudged (b : Branch) (heard : List RxByte) (s : State) : Host.Outcome State Fault Refusal :=
  whenRunning s fun x => actOn (judgeAnswerSlot x.tables b heard) (atAnswerSlot b x)

/-- UNSOLICITED_FRAME (R37), of a slot that ends or has ended. -/
def execUnsolicitedFrame (b : Branch) (slot : Fin 50) (heard : List RxByte) (s : State) : Host.Outcome State Fault Refusal :=
  whenRunning s fun x => actOn (fun g => done (hearUnsolicited b slot heard g)) (atSlot slot x)

end Sys2Proof.Machine
end

