-- ==== Sys2Proof/Machine/StartUp.lean ====
section
/-! DEFINITION. The reset line, power loss and start-up (R179, R181, R188). -/

namespace Sys2Proof.Machine

/-- A line whose frame on it is abandoned. -/
def Line.silenced (l : Line) : Line := { l with sending := none }

/-- Both switches open: no branch is ON, and every row of both load tables is released (R110, R188). -/
def SupplyUnit.opened (u : SupplyUnit) : SupplyUnit :=
  { u with
    supply := ⟨{ u.supply.forA with state := .off }, { u.supply.forB with state := .off }⟩
    drives := u.drives.map LoadRow.released
    charges := u.charges.map LoadRow.released }

/-- The part stops: it sends nothing, both branch switches are open, and a commit in flight is cut short, which leaves the image
invalid (R181, R188). -/
def stopAll (life : Life) (s : State) : State :=
  let g := s.blocks
  { s with
    life := life
    trunk := { s.trunk with receiver := .hunting false, transmitting := none }
    agent := { s.agent with commit := none, imageValid := s.agent.imageValid && s.agent.commit.isNone }
    blocks := { g with
      lines := ⟨g.lines.forA.silenced, g.lines.forB.silenced⟩
      slu := g.slu.opened } }

/-- RESET_LINE_ASSERT: a running part is held (R188). Without supply there is nothing to hold, and the line stands asserted. -/
def execResetLineAssert (s : State) : Host.Outcome State Fault Refusal :=
  .next (match s.life with
    | .running => stopAll .held s
    | .held => s
    | .unpowered _ => { s with life := .unpowered true })

/-- POWER_LOSS: the supply is gone, and the reset line stands as it stood (R188). -/
def execPowerLoss (s : State) : Host.Outcome State Fault Refusal :=
  .next (stopAll (match s.life with
    | .running => .unpowered false
    | .held => .unpowered true
    | .unpowered line => .unpowered line) s)

/-- Whether a start-up of this cause begins: the supply rises with the reset line released, the line is released where there is supply,
or RESTART's reply has been sent (R183, R188). -/
def canStart (cause : StartCause) (s : State) : Bool :=
  match s.life, cause with
  | .running, .powerUp => true
  | .running, .resetLine => true
  | .running, .restart => decide (s.agent.restart = .replied)
  | .held, .powerUp => false
  | .held, .resetLine => true
  | .held, .restart => false
  | .unpowered line, .powerUp => !line
  | .unpowered _, .resetLine => false
  | .unpowered _, .restart => false

/-- What is left of a cause that begins no start-up: a supply that rises under an asserted reset line leaves the part held, and a line
released without supply is asserted no more (R188; notes/assumptions/9.md). -/
def Life.afterCause (cause : StartCause) : Life → Life
  | .running => .running
  | .held => .held
  | .unpowered line =>
    match cause with
    | .powerUp => if line then .held else .unpowered false
    | .resetLine => .unpowered false
    | .restart => .unpowered line

/-- The image as start-up finds it: a commit cut by the start-up itself has left it without its mark (R179, R181). -/
def startTables (s : State) : Tables := if s.agent.image.isValid then s.agent.image.contents else Tables.empty

/-- The part started, at the start of round 0 (R179, R188). -/
def started (cause : StartCause) (s : State) : State :=
  State.atRoundZero (startTables s) s.agent.image.isValid cause s.agent.image s.pending

/-- START_UP: start-up, and then the first internal samples (R64, R188). -/
def execStartUp (cause : StartCause) (samples : Samples) (s : State) : Host.Outcome State Fault Refusal :=
  .next (if canStart cause s then actOn (fun g => (g, sampleTasks g samples)) (started cause s)
    else { s with life := s.life.afterCause cause })

end Sys2Proof.Machine
end

