-- ==== Sys2Proof/Machine/Dispatch.lean ====
section
/-! DEFINITION. One arm per command: the command's effect on everything but the queue. -/

namespace Sys2Proof.Machine

def exec (i : Instr) (s : State) : Host.Outcome State Fault Refusal :=
  match i with
  | .trunkGoodFrame bytes => Sys2Proof.Machine.execTrunkGoodFrame bytes s
  | .trunkFault bytes => Sys2Proof.Machine.execTrunkFault bytes s
  | .trunkByteTimeout bytes => Sys2Proof.Machine.execTrunkByteTimeout bytes s
  | .frTakeTrunkFrame => Sys2Proof.Machine.execFrTakeTrunkFrame s
  | .badRequestCode => Sys2Proof.Machine.execBadRequestCode s
  | .read => Sys2Proof.Machine.execRead s
  | .write => Sys2Proof.Machine.execWrite s
  | .writeRoute => Sys2Proof.Machine.execWriteRoute s
  | .writePoll => Sys2Proof.Machine.execWritePoll s
  | .writeChannel => Sys2Proof.Machine.execWriteChannel s
  | .writeDriveBind => Sys2Proof.Machine.execWriteDriveBind s
  | .writeDriveShape => Sys2Proof.Machine.execWriteDriveShape s
  | .writeDriveLimit => Sys2Proof.Machine.execWriteDriveLimit s
  | .writeCurve => Sys2Proof.Machine.execWriteCurve s
  | .writeCue => Sys2Proof.Machine.execWriteCue s
  | .writeZone => Sys2Proof.Machine.execWriteZone s
  | .writeRotation => Sys2Proof.Machine.execWriteRotation s
  | .writeMower => Sys2Proof.Machine.execWriteMower s
  | .writeSupply => Sys2Proof.Machine.execWriteSupply s
  | .writeGlobal => Sys2Proof.Machine.execWriteGlobal s
  | .setMode => Sys2Proof.Machine.execSetMode s
  | .showStart => Sys2Proof.Machine.execShowStart s
  | .showStop => Sys2Proof.Machine.execShowStop s
  | .clearLatched => Sys2Proof.Machine.execClearLatched s
  | .resetTrip => Sys2Proof.Machine.execResetTrip s
  | .tripDrive => Sys2Proof.Machine.execTripDrive s
  | .restoreBranch => Sys2Proof.Machine.execRestoreBranch s
  | .branchOff => Sys2Proof.Machine.execBranchOff s
  | .hold => Sys2Proof.Machine.execHold s
  | .recall => Sys2Proof.Machine.execRecall s
  | .resume => Sys2Proof.Machine.execResume s
  | .zoneVeto => Sys2Proof.Machine.execZoneVeto s
  | .clearMower => Sys2Proof.Machine.execClearMower s
  | .store => Sys2Proof.Machine.execStore s
  | .storeCommitComplete => Sys2Proof.Machine.execStoreCommitComplete s
  | .storeCommitFail => Sys2Proof.Machine.execStoreCommitFail s
  | .identify => Sys2Proof.Machine.execIdentify s
  | .status => Sys2Proof.Machine.execStatus s
  | .restart => Sys2Proof.Machine.execRestart s
  | .trunkTxStart => Sys2Proof.Machine.execTrunkTxStart s
  | .trunkTxDone => Sys2Proof.Machine.execTrunkTxDone s
  | .roundStart samples readsBack => Sys2Proof.Machine.execRoundStart samples readsBack s
  | .branchTrip branch sample => Sys2Proof.Machine.execBranchTrip branch sample s
  | .autoOn branch => Sys2Proof.Machine.execAutoOn branch s
  | .channelStale channel => Sys2Proof.Machine.execChannelStale channel s
  | .refreshDue drive => Sys2Proof.Machine.execRefreshDue drive s
  | .retryTimerExpiry mower => Sys2Proof.Machine.execRetryTimerExpiry mower s
  | .stintExpiry mower => Sys2Proof.Machine.execStintExpiry mower s
  | .dryOffExpiry => Sys2Proof.Machine.execDryOffExpiry s
  | .transitHoldExpiry zone => Sys2Proof.Machine.execTransitHoldExpiry zone s
  | .islandBegun => Sys2Proof.Machine.execIslandBegun s
  | .generalSlot branch slot => Sys2Proof.Machine.execGeneralSlot branch slot s
  | .pollSlot branch pair => Sys2Proof.Machine.execPollSlot branch pair s
  | .cueDraw => Sys2Proof.Machine.execCueDraw s
  | .cueResolve branch slot => Sys2Proof.Machine.execCueResolve branch slot s
  | .echoJudged branch echo => Sys2Proof.Machine.execEchoJudged branch echo s
  | .answerSlotJudged branch heard => Sys2Proof.Machine.execAnswerSlotJudged branch heard s
  | .unsolicitedFrame branch slot heard => Sys2Proof.Machine.execUnsolicitedFrame branch slot heard s
  | .resetLineAssert => Sys2Proof.Machine.execResetLineAssert s
  | .startUp cause samples => Sys2Proof.Machine.execStartUp cause samples s
  | .powerLoss => Sys2Proof.Machine.execPowerLoss s

end Sys2Proof.Machine
end

