-- ==== Sys2Proof/Machine/Step.lean ====
section
/-! DEFINITION. One step of the part: the command at the front of the queue is run with the rest of the queue; on an empty queue the
blocks go on with what their agenda holds, and where it holds nothing the part idles (notes/assumptions/4.md). -/

namespace Sys2Proof.Machine

/-- The agenda of a running part goes on; without one nothing changes. -/
def idle (s : State) : State :=
  match s.life, s.blocks.agenda with
  | .running, _ :: _ => { s with blocks := settle s.tables s.clock.round [] s.blocks }
  | _, _ => s

/-- One step. -/
def step (s : State) : Host.Outcome State Fault Refusal :=
  match s.pending with
  | c :: rest => exec c { s with pending := rest }
  | [] => .next (idle s)

/-- The state with the command a word spells put at the front of its queue; unchanged where the word spells none. -/
def State.withFetchWord (s : State) (nbits w : Nat) : State :=
  match Sys2Proof.decodeTableWord nbits w with
  | some c => { s with pending := c :: s.pending }
  | none => s

end Sys2Proof.Machine
end

