-- ==== Sys2Proof/WellFormed.lean ====
section
/-! DEFINITION. What well-formed terms are: the commands whose operands can reach the part, the frames a line can carry, and the
table entries that the checks of a WRITE let through (R59, R76–R79, R108, R121, R136, R137, R151, R153, R176). -/

namespace Sys2Proof

/-! ## Commands -/

/-- The most bytes a branch line can carry in one slot: 5 ms at 76,800 bit/s, 10 bits a byte (R17). -/
def slotBytes : Nat := 38

/-- The longest frame, as many bytes as its echo can have (R1, R35). -/
def frameBytes : Nat := 31

/-- A step of the trunk receiver that finds something has taken a byte. -/
def takesBytes (bytes : List RxByte) : Bool := !bytes.isEmpty

/-- What is heard in one slot fits in it. -/
def fitsSlot (heard : List RxByte) : Bool := decide (heard.length ≤ slotBytes)

/-- An echo is no longer than a frame. -/
def fitsFrame (echo : List RxByte) : Bool := decide (echo.length ≤ frameBytes)

/-- A branch current lies within its channel's range (R58). -/
def isCurrent (n : Nat) : Bool := decide (n ≤ 3000)

/-- Whether a command's operands can reach the part. `exec` gives every command its meaning, well formed or not. -/
def Instr.wellFormed : Instr → Bool
  | .trunkGoodFrame bytes => takesBytes bytes
  | .trunkFault bytes => takesBytes bytes
  | .trunkByteTimeout _ => true
  | .frTakeTrunkFrame => true
  | .badRequestCode => true
  | .read => true
  | .write => true
  | .writeRoute => true
  | .writePoll => true
  | .writeChannel => true
  | .writeDriveBind => true
  | .writeDriveShape => true
  | .writeDriveLimit => true
  | .writeCurve => true
  | .writeCue => true
  | .writeZone => true
  | .writeRotation => true
  | .writeMower => true
  | .writeSupply => true
  | .writeGlobal => true
  | .setMode => true
  | .showStart => true
  | .showStop => true
  | .clearLatched => true
  | .resetTrip => true
  | .tripDrive => true
  | .restoreBranch => true
  | .branchOff => true
  | .hold => true
  | .recall => true
  | .resume => true
  | .zoneVeto => true
  | .clearMower => true
  | .store => true
  | .storeCommitComplete => true
  | .storeCommitFail => true
  | .identify => true
  | .status => true
  | .restart => true
  | .trunkTxStart => true
  | .trunkTxDone => true
  | .roundStart _ _ => true
  | .branchTrip _ sample => isCurrent sample
  | .autoOn _ => true
  | .channelStale _ => true
  | .refreshDue _ => true
  | .retryTimerExpiry _ => true
  | .stintExpiry _ => true
  | .dryOffExpiry => true
  | .transitHoldExpiry _ => true
  | .islandBegun => true
  | .generalSlot _ _ => true
  | .pollSlot _ _ => true
  | .cueDraw => true
  | .cueResolve _ _ => true
  | .echoJudged _ echo => fitsFrame echo
  | .answerSlotJudged _ heard => fitsSlot heard
  | .unsolicitedFrame _ _ heard => takesBytes heard && fitsSlot heard
  | .resetLineAssert => true
  | .startUp _ _ => true
  | .powerLoss => true

namespace Machine

/-! ## Frames -/

/-- A payload of at most 24 bytes (R1). -/
def Frame.wellFormed (f : Frame) : Prop := f.payload.length ≤ Config.maxPayload

/-- The bytes of a frame as a receiver hears them, each with its stop bit. -/
def Frame.onWire (f : Frame) : List RxByte := f.encode.map fun x => ⟨x, true⟩

/-! ## Table entries -/

/-- A number that fits one byte. -/
def isByte (n : Nat) : Prop := n ≤ 255

/-- A number that fits two bytes. -/
def isWord (n : Nat) : Prop := n ≤ 65535

/-- A signed 16-bit value. -/
def isSigned (v : Int) : Prop := -32768 ≤ v ∧ v ≤ 32767

/-- A ROUTE entry as R46 stores it. -/
def RouteEntry.wellFormed (e : RouteEntry) : Prop := e.matchValue.toNat ≤ 125 ∧ e.mask.toNat ≤ 127

/-- A poll-table entry (R30). -/
def PollEntry.wellFormed (e : PollEntry) : Prop := e.node.toNat ≤ 111 ∧ 1 ≤ e.interval ∧ e.interval ≤ 240

/-- The thresholds and limits of a CHANNEL entry (R59). -/
def ChannelConfig.limitsWellFormed (e : ChannelConfig) : Prop :=
  1 ≤ e.staleLimit ∧ isWord e.staleLimit ∧ isSigned e.highAlarm ∧ isSigned e.highWarn ∧ isSigned e.lowWarn ∧ isSigned e.lowAlarm ∧
    isByte e.hysteresis ∧ e.deadband ≤ 32767

/-- A CHANNEL entry of channel `i`: the binding fields of channels 12–15 are not stored (R15, R59). -/
def ChannelConfig.wellFormed (i : Nat) (e : ChannelConfig) : Prop :=
  e.limitsWellFormed ∧
    if i < 12 then e.node.toNat ≤ 111 ∧ e.valueIndex ≤ 10 ∧ (e.enabled = true → e.node ≠ 0)
    else e.enabled = false ∧ e.branch = .branchA ∧ e.node = 0 ∧ e.valueIndex = 0

/-- A DRIVE-BIND entry (R76). -/
def DriveBind.wellFormed (e : DriveBind) : Prop := e.dest.toNat ≤ 125 ∧ e.output ≤ 3

/-- A DRIVE-SHAPE entry (R78). -/
def DriveShape.wellFormed (e : DriveShape) : Prop :=
  isSigned e.base ∧ 1 ≤ e.step ∧ e.step ≤ 4095 ∧ isByte e.boostAmount ∧ isByte e.holdLevel

/-- A DRIVE-LIMIT entry that nothing clamps (R79). -/
def DriveLimit.wellFormed (e : DriveLimit) : Prop :=
  isByte e.maxLevel ∧ isByte e.floorLevel ∧ isByte e.fallbackLevel ∧ e.rated ≤ 1000 ∧ isByte e.deadband ∧ e.refresh ≤ 240 ∧
    isByte e.sprayCap ∧ isByte e.transitLevel

/-- A cue's action (R121): a stored payload is a well-formed SET-LEVEL, or begins with a code the part does not know. -/
def CueAction.wellFormed : CueAction → Prop
  | .level _ l => isByte l
  | .frame _ dest payload =>
    dest.toNat ≤ 125 ∧ 1 ≤ payload.length ∧ payload.length ≤ 8 ∧ cuePayloadAllowed payload = true

/-- A CUE entry (R121). -/
def CueConfig.wellFormed (e : CueConfig) : Prop :=
  1 ≤ e.period ∧ e.period ≤ 240 ∧ e.phase < e.period ∧ 1 ≤ e.priority ∧ e.priority ≤ 7 ∧ e.tolerance ≤ 15 ∧ e.action.wellFormed

/-- A ZONE entry (R136). -/
def ZoneConfig.wellFormed (e : ZoneConfig) : Prop := 1 ≤ e.stint ∧ e.stint ≤ 240 ∧ e.transitHold ≤ 2400

/-- A MOWER entry (R151). -/
def MowerConfig.wellFormed (e : MowerConfig) : Prop :=
  e.node.toNat ≤ 111 ∧ e.dock.toNat ≤ 111 ∧ e.chargeCurrent ≤ 2000 ∧ e.dispatchBattery ≤ 100 ∧ e.returnBattery ≤ 100 ∧
    e.node ≠ e.dock ∧ (e.enabled = true → e.node ≠ 0 ∧ e.dock ≠ 0)

/-- A SUPPLY entry that nothing clamps (R108). -/
def SupplyConfig.wellFormed (e : SupplyConfig) : Prop := e.budget ≤ 2000

/-- A GLOBAL entry that nothing clamps (R137, R176). -/
def GlobalConfig.wellFormed (e : GlobalConfig) : Prop :=
  e.dryOff ≤ 14400 ∧ 8 ≤ e.silenceTimeout ∧ e.silenceTimeout ≤ 2400

end Machine

end Sys2Proof
end

