-- ==== Sys2Proof/Safety.lean ====
section
/-! DEFINITION. What a sound state of the part is, and the words the statements are made in: a command taken, a reply placed, a
notice offered, and what a step of the blocks leaves alone. -/

namespace Sys2Proof.Machine

/-! ## Invariants of the part -/

/-- One for a thing present, 0 for one absent. -/
def oneIf (b : Bool) : Nat := if b then 1 else 0

/-- The upstream queue: places in use never exceed 32, at most 28 are REPORT and NOTICE frames, and every reply the agent has yet to
place has its place claimed (R43). -/
def upstreamSound (s : State) : Prop :=
  s.blocks.up.inUse ≤ 32 ∧ s.blocks.up.reports ≤ 28 ∧
    oneIf s.agent.request.isSome + oneIf s.agent.commit.isSome ≤ s.blocks.up.claimed

/-- A branch's send queue and poll-now list hold no more than their places (R20, R31). -/
def Line.withinPlaces (l : Line) : Prop := l.queue.length ≤ 16 ∧ l.pollNow.length ≤ 4

/-- The receive FIFO, the send queues and the poll-now lists hold no more than their places (R20, R31, R41). -/
def queuesSound (s : State) : Prop :=
  s.trunk.fifo.length ≤ 8 ∧ s.blocks.lines.forA.withinPlaces ∧ s.blocks.lines.forB.withinPlaces

/-- An active rotation length (R153). -/
def isRotationLength (n : Nat) : Prop := 1 ≤ n ∧ n ≤ 64

/-- The rotation pointer lies below the active length, and every length the part holds is 1–64 (R153). -/
def rotationSound (s : State) : Prop :=
  s.blocks.mowers.pointer < s.tables.rotationLength ∧ isRotationLength s.tables.rotationLength ∧
    isRotationLength s.agent.image.contents.rotationLength ∧
    ∀ c, s.agent.commit = some c → isRotationLength c.snapshot.rotationLength

/-- Each latched flag is set whenever its live flag is (R70). -/
def Flags.within (live latched : Flags) : Prop :=
  (live.lowAlarm = true → latched.lowAlarm = true) ∧ (live.lowWarn = true → latched.lowWarn = true) ∧
    (live.highWarn = true → latched.highWarn = true) ∧ (live.highAlarm = true → latched.highAlarm = true)

/-- Every channel's latched flags hold its live flags (R70). -/
def latchesSound (s : State) : Prop := ∀ c : Fin 16, (s.blocks.channel c).live.within (s.blocks.channel c).latched

/-- No cue's postponement count exceeds its tolerance (R127). -/
def postponementsSound (s : State) : Prop := ∀ c : Fin 64, (s.blocks.cueRun c).postponed ≤ (s.tables.cues.get c).tolerance

/-- The store: an image recorded as valid is whole and no commit is in flight; a commit in flight has cleared the completion mark and
has at most seven of its eight parts written (R179–R181). -/
def storeSound (s : State) : Prop :=
  (s.agent.imageValid = true → s.agent.image.isValid = true ∧ s.agent.commit = none) ∧
    ∀ c, s.agent.commit = some c → s.agent.image.mark = false ∧ c.parts ≤ 7

/-- A zone has at most one occupant, and a mower occupies at most one zone (R146). -/
def occupancySound (s : State) : Prop :=
  ∀ (y z : Fin 32) (m n : Fin 4), (s.blocks.zone y).occupiedBy m = true → (s.blocks.zone z).occupiedBy n = true →
    (y = z → m = n) ∧ (m = n → y = z)

/-- The saturating counts stay within their limits: the three trunk counts, the lost-notice count, the rounds spent in ISLAND, the two
branches' collision and unsolicited counts, the presence records' misses and garbles, the channels' and drives' round counts, and the
cues' clash counts. -/
def countsSound (s : State) : Prop :=
  s.trunk.errors ≤ 65535 ∧ s.trunk.formats ≤ 65535 ∧ s.trunk.overflows ≤ 65535 ∧ s.trunk.islandRounds ≤ 32767 ∧
    s.blocks.up.lost ≤ 255 ∧
    (∀ b, (s.blocks.line b).collisions ≤ 65535 ∧ (s.blocks.line b).unsolicited ≤ 65535 ∧
      ∀ i, ((s.blocks.line b).polls.get i).misses ≤ 255 ∧ ((s.blocks.line b).polls.get i).garbles ≤ 65535) ∧
    (∀ c, (s.blocks.channel c).rounds ≤ 65535) ∧ (∀ d, (s.blocks.drive d).roundsSinceSend ≤ 255) ∧
    ∀ c, (s.blocks.cueRun c).clashes ≤ 255

/-! ## The load tables -/

/-- A row's granted current is what its granted level draws, and a charge row is granted 0 or 1 (R110). -/
def SupplyUnit.rowSound (u : SupplyUnit) (t : Tables) : LoadId → Prop
  | .drive d => (u.drives.get d).current = levelCurrent (t.limits.get d).rated (u.drives.get d).granted
  | .charge m =>
    ((u.charges.get m).granted = 0 ∧ (u.charges.get m).current = 0) ∨
      ((u.charges.get m).granted = 1 ∧ (u.charges.get m).current = (t.mowers.get m).chargeCurrent)

/-- The sum of granted currents on a branch is within its effective budget (R110). -/
def SupplyUnit.withinBudget (u : SupplyUnit) (t : Tables) (b : Branch) : Prop := u.grantSum t b ≤ u.effective t b

/-- A row released: nothing wanted, nothing granted, no marks (R103). -/
def LoadRow.quiet (r : LoadRow) : Prop :=
  r.wanted = 0 ∧ r.granted = 0 ∧ r.current = 0 ∧ r.shed = false ∧ r.limited = false

/-- The load tables (R110): on each branch every row's current is its grant's, no row is granted above what it wants, the grants are
within the effective budget, and the rows are released while the branch is not ON. The row of a drive that is UNPOWERED, or bound to no
branch, is released. -/
def loadTablesSound (s : State) : Prop :=
  let u := s.blocks.slu
  (∀ (b : Branch) (i : LoadId), s.tables.loadOn b i = true →
    u.rowSound s.tables i ∧ (u.row i).granted ≤ (u.row i).wanted ∧ (s.blocks.supplyState b ≠ .on → (u.row i).quiet)) ∧
    (∀ b : Branch, u.withinBudget s.tables b) ∧
    ∀ d : Fin 24, s.tables.bound d = false ∨ (s.blocks.drive d).unpowered = true → (u.drives.get d).quiet

/-! ## The drives' levels -/

/-- A drive's branch has become ON, and the drive's hand-over is still to come among the events that wait. -/
def handOverOwed (s : State) (d : Fin 24) : Prop :=
  Task.drivesOn (s.tables.binds.get d).branch ∈ s.blocks.agenda ∨
    ((s.blocks.drive d).handDue = true ∧ ∃ seen, Task.recompute d seen ∈ s.blocks.agenda)

/-- A drive's branch has left ON, and what the drive does about it is still to come among the events that wait. -/
def powerOffOwed (s : State) (d : Fin 24) : Prop :=
  Task.drivesOff (s.tables.binds.get d).branch ∈ s.blocks.agenda ∨ Task.unpower d ∈ s.blocks.agenda

/-- The levels of one drive (R94): wanted is within its max level, and 0 while the drive is TRIPPED or OFF; granted is 0 while it is unbound
or UNPOWERED; and a bound drive with power is on a branch that is ON, granted at most what it wants, which is what it last handed over,
but for what the events that wait still owe it. -/
def driveSound (s : State) (d : Fin 24) : Prop :=
  let x := s.blocks.drive d
  x.wanted ≤ (s.tables.limits.get d).maxLevel ∧
    (x.tripped = true ∨ (s.tables.shapes.get d).mode = .off → x.wanted = 0) ∧
    (s.tables.bound d = false ∨ x.unpowered = true → x.granted = 0) ∧
    (s.tables.bound d = true → x.unpowered = false →
      (s.blocks.supplyState (s.tables.binds.get d).branch = .on →
        (x.granted ≤ x.wanted ∧ (s.blocks.slu.drives.get d).wanted = x.wanted) ∨ handOverOwed s d) ∧
      (s.blocks.supplyState (s.tables.binds.get d).branch ≠ .on → powerOffOwed s d))

/-- The levels of every drive of a running part (R94). -/
def levelsSound (s : State) : Prop := s.life = .running → ∀ d : Fin 24, driveSound s d

/-! ## The mowers' charge, and the paths -/

/-- The charge of one mower (R157): an enabled mower is CHARGING exactly when its charge row is granted, and a standing request is that of a
DOCKED mower with charge standing set, but for a push of the row, or the end of its record's disabling, among the events that wait. A
mower whose record is disabled is not CHARGING. -/
def chargeSound (s : State) (m : Fin 4) : Prop :=
  let x := s.blocks.mower m
  let r := s.blocks.slu.charges.get m
  let waits := fun e => e ∈ s.blocks.agenda
  let disabling := waits (Task.released m .disables)
  if (s.tables.mowers.get m).enabled = true then
    r.wanted ≤ 1 ∧
    (r.granted = 1 →
      x.state = .charging ∨ (x.state = .docked ∧ x.chargeStanding = true ∧ waits (.pushCharge m .granted))) ∧
    (x.state = .charging → r.granted = 1 ∨ waits (.pushCharge m .suspended) ∨ waits (.pushCharge m .released) ∨ disabling) ∧
    (r.wanted = 1 → r.granted = 0 →
      (x.state = .docked ∧ x.chargeStanding = true) ∨ (x.state = .charging ∧ waits (.pushCharge m .suspended)))
  else (x.state ≠ .charging ∧ x.chargeStanding = false) ∨ disabling

/-- The charge of every mower of a running part (R157); a branch whose auto-on is armed is not ON (R106, R107). -/
def chargingSound (s : State) : Prop :=
  s.life = .running → (∀ m : Fin 4, chargeSound s m) ∧
    ∀ b : Branch, (s.blocks.slu.supply.get b).armed = true → s.blocks.supplyState b ≠ .on

/-- The mowers whose transit zone is a zone. -/
def mowersCrossing (s : State) (z : Fin 32) : List (Fin 4) :=
  (indices 4).filter fun m => decide (s.blocks.zones.transitZones.get m = some z)

/-- The transit counts (R148): each is the number of mowers whose transit zone that zone is, and each of those is OUTBOUND, INBOUND or
LOST. -/
def transitSound (s : State) : Prop :=
  (∀ z : Fin 32, (s.blocks.zone z).transitCount = (mowersCrossing s z).length) ∧
    ∀ m : Fin 4, (s.blocks.zones.transitZones.get m).isSome = true →
      (s.blocks.mower m).state = .outbound ∨ (s.blocks.mower m).state = .inbound ∨ (s.blocks.mower m).state = .lost

/-! ## Words of the statements -/

/-- The part runs, and the agent holds a request. -/
def taken (s : State) (r : Request) : Prop := s.life = .running ∧ s.agent.request = some r

/-- The frame of a MANAGE-REPLY: to the request's source, from 127, with its tag, and the header of R13. -/
def replyTo (r : Request) (result count : Nat) (data : List Byte) : Frame :=
  ⟨r.source, 127#8, 7#4, r.tag, [byteOf result, byteOf r.table, byteOf r.first, byteOf count] ++ data⟩

/-- A reply takes its claimed place at the end of the upstream queue (R43). -/
def withReply (g : Blocks) (f : Frame) : Blocks :=
  { g with up := { g.up with queue := g.up.queue ++ [⟨f, false⟩], claimed := g.up.claimed - 1 } }

/-- The request held is finished with a reply. -/
def replied (s : State) (f : Frame) : State :=
  { s with agent := { s.agent with request := none }, blocks := withReply s.blocks f }

/-- The frame the upstream queue holds last. -/
def lastUp (t : State) (f : Frame) : Prop := t.blocks.up.queue.getLast? = some ⟨f, false⟩

/-- What a request leaves alone whatever the blocks do about it: life, clock, trunk, the waiting commands, and all of the agent but the
request, which it has finished. -/
def requestFrame (s t : State) : Prop :=
  t.life = s.life ∧ t.clock = s.clock ∧ t.trunk = s.trunk ∧ t.pending = s.pending ∧ t.agent = { s.agent with request := none }

/-- What an event of the blocks leaves alone: all but the blocks and the slot index. -/
def eventFrame (s t : State) : Prop :=
  t.life = s.life ∧ t.tables = s.tables ∧ t.clock.round = s.clock.round ∧ t.trunk = s.trunk ∧ t.agent = s.agent ∧
    t.pending = s.pending

/-- A WRITE of one entry: its table id, its index, and its bytes, whatever data bytes follow them. -/
def writesOne (r : Request) (table index : Nat) (bytes : List Byte) : Prop :=
  r.code = 2 ∧ r.table = table ∧ r.first = index ∧ r.count = 1 ∧ ∃ more, r.data = bytes ++ more

/-- No events wait between commands. -/
def settled (s : State) : Prop := s.life = .running ∧ s.blocks.agenda = []

/-- A notice or report offered to the upstream queue is the last frame of it, where it finds a place (R44). -/
def withNotice (g : Blocks) (code subject : Nat) (first second : Int) : Blocks :=
  g.offer (noticeFrame code subject first second)

/-- A notice that found a place stands in the upstream queue. -/
def noticeHeld (t : State) (code subject : Nat) (first second : Int) : Prop :=
  (⟨noticeFrame code subject first second, false⟩ : UpFrame) ∈ t.blocks.up.queue

/-- The same blocks but for one branch's line. -/
def withLine (s : State) (b : Branch) (l : Line) : State := { s with blocks := { s.blocks with lines := s.blocks.lines.set b l } }

/-- The same state but for one branch's supply record. -/
def withSupply (s : State) (b : Branch) (x : Supply) : State :=
  { s with blocks := { s.blocks with slu := { s.blocks.slu with supply := s.blocks.slu.supply.set b x } } }

/-- The same state but for one drive's record. -/
def withDrive (s : State) (d : Fin 24) (x : Drive) : State := { s with blocks := { s.blocks with drives := s.blocks.drives.set d x } }

/-- The same state but for one mower's record. -/
def withMower (s : State) (m : Fin 4) (x : Mower) : State :=
  { s with blocks := { s.blocks with mowers := { s.blocks.mowers with mowers := s.blocks.mowers.mowers.set m x } } }

/-- A start-up of a cause begins: the supply rises with the reset line released, the line is released where there is supply, or the reply of
a RESTART has been sent by a running part (R183, R188). -/
def startUpBegins (cause : StartCause) (s : State) : Prop :=
  (cause = .powerUp ∧ (s.life = .running ∨ s.life = .unpowered false)) ∨ (cause = .resetLine ∧ (s.life = .running ∨ s.life = .held)) ∨
    (cause = .restart ∧ s.life = .running ∧ s.agent.restart = .replied)

/-- A command is held for a mower (R156). -/
abbrev commandHeld (x : Mower) (c : MowerCommand) : Prop := ∃ h ∈ x.commands, h.id.command = c

/-- An entry is a command held for a mower whose record has not been disabled since (R156, R170). -/
abbrev ownCommand (x : Mower) (k : CommandId) : Prop := ∃ h ∈ x.commands, h.id = k ∧ h.former = false

/-- A mower without the held mark of an entry. -/
def unmarked (x : Mower) (k : CommandId) : Mower := { x with commands := x.commands.filter fun h => decide (h.id ≠ k) }

/-- A frame is the last entry of a branch's send queue, as a mower's command, and the last that is held for that mower. -/
def queuedAndHeld (g : Blocks) (m : Fin 4) (b : Branch) (f : Frame) (urgent : Bool) (c : MowerCommand) (on : Bool) : Prop :=
  ∃ e, (g.line b).queue.getLast? = some e ∧ e.frame = f ∧ e.urgent = urgent ∧ e.origin = .mower m c ∧
    (g.mower m).commands.getLast? = some ⟨⟨c, b, e.arrival⟩, on, false⟩

/-- The same state with the slot index at a slot that has come. -/
def inSlot (s : State) (slot : Fin 50) : State := { s with clock := { s.clock with slot := slot } }

/-- The other branch. -/
def otherBranch : Branch → Branch
  | .branchA => .branchB
  | .branchB => .branchA

end Sys2Proof.Machine
end

