-- ==== Sys2Proof/Certificates/Slice0/Obligations.lean ====
section
/-! DEFINITION. The statements about the part. Each one's docstring names the rules it comes from; where a clause rests on a choice of
the model, it names the row of notes/assumptions/ that says so. -/

open Sys2Proof Sys2Proof.Machine

/-! ## The machine -/

/-- A step runs the command at the front of the queue on the state with the rest of the queue. -/
def Obligations.StepRunsTheFrontCommand : Prop :=
  ∀ (c : Instr) (rest : List Instr) (s : State), s.pending = c :: rest → step s = exec c { s with pending := rest }

/-- Right after reset every block stands as the table of R188 gives for a start-up that found the image invalid, with STARTED (0, 0, 0)
first in the upstream queue. That the image is invalid and the cause power-up is the model's choice (notes/assumptions/1.md). So are the values
of the model's own fields (notes/assumptions/36.md); the class of a load row before any hand-over is read from the manual by inference
(notes/assumptions/26.md). -/
def Obligations.ResetIsAStartUpWithoutImage : Prop :=
  State.reset.life = .running ∧ State.reset.tables = Tables.empty ∧ State.reset.clock = ⟨0, 0⟩ ∧ State.reset.pending = [] ∧
    State.reset.trunk = ⟨.hunting false, [], 0, 0, 0, 120, 120, false, 0, none⟩ ∧
    State.reset.agent.request = none ∧ State.reset.agent.commit = none ∧ State.reset.agent.imageValid = false ∧
    State.reset.blocks.up = ⟨[⟨⟨126, 127, 8, 0, [1, 0, 0, 0, 0, 0, 0]⟩, false⟩], 0, 0⟩ ∧
    let g := State.reset.blocks
    (∀ b : Branch, g.line b = ⟨[], 0, false, Table.fill 32 ⟨⟨0, false⟩, .unknown, 0, 0⟩, [], 0, none, none, 23, 0, 0, none, none, none⟩ ∧
      g.slu.supply.get b = ⟨.off, ⟨40, false⟩, true, 0⟩) ∧
    (∀ n, g.forwards.get n = ⟨none, none⟩) ∧
    (∀ c, g.channel c = ⟨0, .empty, ⟨false, false, false, false⟩, ⟨false, false, false, false⟩, 0, none⟩) ∧
    (∀ d, g.drive d = ⟨0, 0, 0, 0, 0, 0, false, 0, false, 0, false, false, false, false, false, false, false, false, false⟩ ∧
      g.slu.drives.get d = ⟨.water, 0, 0, 0, false, false⟩ ∧ g.zones.overCaps.get d = ⟨false, 0⟩) ∧
    g.slu.supplyLow = false ∧
    (∀ c, g.cueRun c = ⟨0, false, 0, 0, false⟩) ∧ (∀ sh, g.cues.running.get sh = false) ∧ g.cues.resolved = [] ∧
    (∀ z, g.zone z = ⟨false, false, false, false, false, false, 0, 0, 0, .idle⟩) ∧
    g.zones.rain = .dry ∧ g.zones.dryOffRemaining = 0 ∧ g.zones.windy = false ∧ g.zones.dark = false ∧
    (∀ m, g.mower m = ⟨.absent, none, 0, .docked, 255, 0, 0, false, false, [], 0, []⟩ ∧
      g.slu.charges.get m = ⟨.charge, 0, 0, 0, false, false⟩ ∧ g.zones.transitZones.get m = none) ∧
    g.mowers.pointer = 0 ∧ g.mowers.held = false ∧ g.mowers.daylight = true ∧ g.mowers.island = false ∧ g.agenda = []

/-! ## Invariants -/

/-- The invariants below hold right after reset. -/
def Obligations.ResetIsSound : Prop :=
  upstreamSound State.reset ∧ queuesSound State.reset ∧ rotationSound State.reset ∧ latchesSound State.reset ∧
    postponementsSound State.reset ∧ storeSound State.reset ∧ occupancySound State.reset ∧ countsSound State.reset ∧
    loadTablesSound State.reset ∧ levelsSound State.reset ∧ chargingSound State.reset ∧ transitSound State.reset

/-- Every step keeps the upstream queue's places in use within 32, its REPORT and NOTICE frames within 28, and a place claimed for each
reply still to be placed (R43, R44). Every step keeps the receive FIFO, the send queues and the poll-now lists within their places (R20,
R31, R41). -/
def Obligations.QueuesKeptWithinPlaces : Prop :=
  (∀ s t : State, upstreamSound s → step s = .next t → upstreamSound t) ∧
    ∀ s t : State, queuesSound s → step s = .next t → queuesSound t

/-- Every step keeps the rotation pointer below the active length, and every length held within 1–64 (R153). -/
def Obligations.RotationPointerKept : Prop := ∀ s t : State, rotationSound s → step s = .next t → rotationSound t

/-- Every step keeps each latched flag set whenever its live flag is (R70), and each cue's postponement count within its tolerance
(R127). -/
def Obligations.LatchesAndPostponementsKept : Prop :=
  (∀ s t : State, latchesSound s → step s = .next t → latchesSound t) ∧
    ∀ s t : State, postponementsSound s → step s = .next t → postponementsSound t

/-- Every step keeps the store's record honest: valid means a whole image and no commit in flight, and a commit in flight has cleared the
completion mark (R179–R181). -/
def Obligations.StoreKept : Prop := ∀ s t : State, storeSound s → step s = .next t → storeSound t

/-- Every step keeps zones and mowers apart: at most one occupant to a zone, at most one zone to an occupant (R145, R146). -/
def Obligations.OccupancyKept : Prop := ∀ s t : State, occupancySound s → step s = .next t → occupancySound t

/-- Every step keeps the saturating counts within their limits: trunk counts, lost notices, ISLAND rounds, collisions, unsolicited frames,
misses and garbles, rounds since an update and since a send, and clashes (R34, R37, R40, R44, R65, R80, R120, R186). -/
def Obligations.CountsKeptWithinLimits : Prop := ∀ s t : State, countsSound s → step s = .next t → countsSound t

/-- Every step keeps the law of the load tables: on each branch every row's current is its grant's and no row is granted above what it
wants, the sum of granted currents is within the effective budget, and every row is released, so that the sum is 0, while the branch is not
ON (R110). The invariant says besides that the row of an unbound or UNPOWERED drive is released. -/
def Obligations.LoadTablesKept : Prop := ∀ s t : State, loadTablesSound s → step s = .next t → loadTablesSound t

/-- Every step keeps the law of the levels: a drive's wanted level is within its max level and 0 while it is TRIPPED or OFF, its granted
level is within its wanted level and 0 while it is unbound or UNPOWERED (R94). The invariant says besides what the events that wait still
owe a drive whose branch has just left or become ON (R99, R100); where none waits the law holds as it stands. -/
def Obligations.DriveLevelsKept : Prop :=
  ∀ s t : State, loadTablesSound s → levelsSound s → step s = .next t → levelsSound t

/-- Every step keeps CHARGING and the charge grants together: an enabled mower is CHARGING exactly when its charge row is granted, and a
request stands only for a DOCKED mower with charge standing set (R157, R158). The invariant says besides which push that waits may still
have to be taken; where no event waits the law holds as it stands. -/
def Obligations.ChargingMatchesGrants : Prop :=
  ∀ s t : State, loadTablesSound s → chargingSound s → step s = .next t → chargingSound t

/-- Every step that begins and ends with no event waiting keeps each zone's transit count equal to the number of mowers whose transit zone it
is, each of them OUTBOUND, INBOUND or LOST (R148). -/
def Obligations.TransitCountsKept : Prop :=
  ∀ s t : State, s.blocks.agenda = [] → transitSound s → step s = .next t → t.blocks.agenda = [] → transitSound t

/-! ## Frames and the trunk (chapters 1 and 3) -/

/-- The nine bytes 31 hex to 39 hex give the check 29B1 hex, and a receiver that hears a frame as it is sent finds exactly that frame and
hunts again; a run of bytes discarded before it is one start fault, found at the start mark (R1–R3). -/
def Obligations.ReceivedFrameIsTheFrameSent : Prop :=
  crc16 [0x31, 0x32, 0x33, 0x34, 0x35, 0x36, 0x37, 0x38, 0x39] = 0x29B1#16 ∧
  ∀ f : Frame, f.wellFormed →
    (Receiver.hunting false).takeAll f.onWire = (.hunting false, [.good f]) ∧
      (Receiver.hunting true).takeAll f.onWire = (.hunting false, [.startFault, .good f])

/-- TRUNK_GOOD_FRAME outside ISLAND: the silence timer is reloaded, and the frame joins the FIFO or, where it holds 8, is dropped and
counted; nothing else changes (R40, R41). In ISLAND it ends ISLAND: the timer is reloaded, the island records become no, ISLAND-ENDED joins
the queue where it finds a place, the transmitter starts if there is a frame to start, and the frame joins the FIFO marked as having come
in ISLAND (R187). -/
def Obligations.GoodTrunkFrameIsTaken : Prop :=
  (∀ (s : State) (f : Frame), s.life = .running → s.trunk.receiver = .hunting false → s.trunk.island = false → f.wellFormed →
    exec (.trunkGoodFrame f.onWire) s = .next { s with trunk := { s.trunk with
      silenceTimer := s.tables.globals.silenceTimeout
      timeoutInForce := s.tables.globals.silenceTimeout
      fifo := if s.trunk.fifo.length < 8 then s.trunk.fifo ++ [⟨f, false⟩] else s.trunk.fifo
      overflows := if s.trunk.fifo.length < 8 then s.trunk.overflows else min 65535 (s.trunk.overflows + 1) } }) ∧
  ∀ (s : State) (f : Frame), s.life = .running → s.trunk.receiver = .hunting false → s.trunk.island = true → f.wellFormed →
    ∃ t, exec (.trunkGoodFrame f.onWire) s = .next t ∧
      t.life = s.life ∧ t.tables = s.tables ∧ t.clock = s.clock ∧ t.agent = s.agent ∧ t.pending = s.pending ∧
      t.trunk.island = false ∧ t.blocks.mowers.island = false ∧ t.trunk.silenceTimer = s.tables.globals.silenceTimeout ∧
      t.trunk.timeoutInForce = s.tables.globals.silenceTimeout ∧
      t.trunk.fifo = (if s.trunk.fifo.length < 8 then s.trunk.fifo ++ [⟨f, true⟩] else s.trunk.fifo) ∧
      t.trunk.errors = s.trunk.errors ∧ t.trunk.formats = s.trunk.formats ∧
      (t.trunk.transmitting.isSome = true ∨ t.blocks.up.queue = []) ∧
      (s.blocks.up.hasRoom = true → ∃ x ∈ t.blocks.up.queue, x.frame.kind = 8 ∧
        x.frame.payload.take 6 = (noticePayload 21 0 s.trunk.islandRounds 0).take 6)

/-- The part with one trunk error more, the receiver left as given. -/
def errorCounted (s : State) (r : Receiver) : State :=
  { s with trunk := { s.trunk with receiver := r, errors := min 65535 (s.trunk.errors + 1) } }

/-- TRUNK_FAULT: a length above 24, a whole frame with a stop bit missing or a check that differs, and a run of discarded bytes ended by a
start mark are each one trunk error, and nothing else changes. TRUNK_BYTE_TIMEOUT: 250 ms without a byte makes an incomplete frame, or a
run of discarded bytes, one trunk error; a receiver that has taken nothing stays as it is (R3, R40). That the stop bits of the start mark
and, where the length is above 24, of the length byte decide nothing is read from the manual by inference (notes/assumptions/17.md). -/
def Obligations.TrunkFaultsAreCounted : Prop :=
  ∀ s : State, s.life = .running →
    (s.trunk.receiver = .hunting false →
      (∀ (n : Byte) (x y : Bool), 24 < n.toNat → exec (.trunkFault [⟨0xC3, x⟩, ⟨n, y⟩]) s = .next (errorCounted s (.hunting false))) ∧
      (∀ (n : Byte) (x y : Bool) (rest : List RxByte), n.toNat ≤ 24 → rest.length = n.toNat + 5 →
        let got : List RxByte := ⟨n, y⟩ :: rest
        let values := got.map RxByte.value
        let check := crc16 (values.take (n.toNat + 4))
        (∃ z ∈ got, z.stop = false) ∨ values.drop (n.toNat + 4) ≠ [hiByte check, loByte check] →
        exec (.trunkFault (⟨0xC3, x⟩ :: got)) s = .next (errorCounted s (.hunting false))) ∧
      (∀ (x : Bool) (junk : List RxByte), junk ≠ [] → (∀ z ∈ junk, z.value ≠ 0xC3) →
        exec (.trunkFault (junk ++ [⟨0xC3, x⟩])) s = .next (errorCounted s (.assembling []))) ∧
      exec (.trunkByteTimeout []) s = .next s) ∧
    (∀ got, s.trunk.receiver = .assembling got → exec (.trunkByteTimeout []) s = .next (errorCounted s (.hunting false))) ∧
    (s.trunk.receiver = .hunting true → exec (.trunkByteTimeout []) s = .next (errorCounted s (.hunting false)))

/-- TRUNK_TX_START: outside ISLAND the idle transmitter starts the oldest frame; a NOTICE takes the lost-notice count, which becomes 0.
In ISLAND, while sending, and with nothing queued, it starts none. TRUNK_TX_DONE: the frame sent leaves the queue, and the reply of a
RESTART leads on to start-up (R45, R183). -/
def Obligations.TransmitterSendsTheOldestFrame : Prop :=
  ∀ s : State, s.life = .running →
    (s.trunk.island = true ∨ s.trunk.transmitting.isSome = true ∨ s.blocks.up.queue = [] → exec .trunkTxStart s = .next s) ∧
    (∀ x rest, s.trunk.island = false → s.trunk.transmitting = none → s.blocks.up.queue = x :: rest →
      (x.frame.kind ≠ 8 →
        exec .trunkTxStart s = .next { s with trunk := { s.trunk with transmitting := some x.frame.encode } }) ∧
      (x.frame.kind = 8 → x.frame.payload.length = 7 →
        let f : Frame := { x.frame with payload := x.frame.payload.take 6 ++ [byteOf s.blocks.up.lost] }
        exec .trunkTxStart s = .next { s with
          trunk := { s.trunk with transmitting := some f.encode }
          blocks := { s.blocks with up := { s.blocks.up with queue := { x with frame := f } :: rest, lost := 0 } } })) ∧
    (s.trunk.transmitting = none → exec .trunkTxDone s = .next s) ∧
    ∀ w x rest, s.trunk.transmitting = some w → s.blocks.up.queue = x :: rest →
      exec .trunkTxDone s = .next { s with
        trunk := { s.trunk with transmitting := none }
        blocks := { s.blocks with up := { s.blocks.up with queue := rest } }
        agent := { s.agent with restart := if x.restart then .replied else s.agent.restart } }

/-- The router and the agent have finished with the frame before, no RESTART has been taken, and `e` is the oldest frame of the FIFO. -/
def routerTakes (s : State) (e : FifoEntry) (rest : List FifoEntry) : Prop :=
  s.life = .running ∧ s.agent.request = none ∧ s.agent.restart = .none ∧ s.trunk.fifo = e :: rest

/-- The commands of R9's table, each in its kind. -/
def recognised (kind : BitVec 4) (payload : List Byte) : Prop :=
  (kind = 1 ∧ ∃ o l : Byte, payload = [1, o, l] ∧ o.toNat ≤ 3) ∨
    (kind = 2 ∧ ∃ z n : Byte, payload = [2, z, n] ∧ z.toNat ≤ 31 ∧ 1 ≤ n.toNat ∧ n.toNat ≤ 240) ∨
    (kind = 2 ∧ payload = [3]) ∨ (kind = 2 ∧ ∃ x : Byte, payload = [4, x] ∧ x.toNat ≤ 1)

/-- A frame the form screen drops: an unknown or upward kind, a destination its kind cannot be served at, a short MANAGE payload, a
malformed command (R5, R6, R9, R12). -/
def badForm (f : Frame) : Prop :=
  (f.kind ≠ 1 ∧ f.kind ≠ 2 ∧ f.kind ≠ 3 ∧ f.kind ≠ 6) ∨ f.dest = 126 ∨
    ((f.kind = 2 ∨ f.kind = 3) ∧ (f.dest = 0 ∨ (112 ≤ f.dest.toNat ∧ f.dest.toNat ≤ 125))) ∨ (f.kind = 6 ∧ f.dest ≠ 127) ∨
    (f.kind ≠ 6 ∧ f.dest = 127) ∨ (f.kind = 6 ∧ f.payload.length < 4) ∨
    ((f.kind = 1 ∨ f.kind = 2) ∧
      (f.payload = [] ∨ (1 ≤ (f.payload.headD 0).toNat ∧ (f.payload.headD 0).toNat ≤ 4 ∧ ¬recognised f.kind f.payload)))

/-- FR_TAKE_TRUNK_FRAME, the form screen: a frame of bad form leaves the FIFO, is counted once as a format fault, and does nothing else
(R42). A MANAGE frame goes to the agent with a place claimed for its reply, or waits at the head of the FIFO while 32 places are in use;
after a RESTART and with an empty FIFO nothing is taken (R41–R43, R183). That nothing is taken while the agent holds a request is the model's
choice (notes/assumptions/5.md). -/
def Obligations.TrunkFramesAreScreened : Prop :=
  (∀ (s : State) (e : FifoEntry) (rest : List FifoEntry), routerTakes s e rest → badForm e.frame →
    exec .frTakeTrunkFrame s = .next { s with trunk := { s.trunk with
      fifo := rest, formats := min 65535 (s.trunk.formats + 1) } }) ∧
  (∀ (s : State) (source code table first count : Byte) (tag : BitVec 4) (data : List Byte) (isl : Bool) (rest : List FifoEntry),
    routerTakes s ⟨⟨127, source, 6, tag, code :: table :: first :: count :: data⟩, isl⟩ rest →
    (s.blocks.up.inUse < 32 → exec .frTakeTrunkFrame s = .next { s with
      trunk := { s.trunk with fifo := rest }
      agent := { s.agent with
        request := some ⟨source, tag, code.toNat, table.toNat, first.toNat, count.toNat, data, isl⟩ }
      blocks := { s.blocks with up := { s.blocks.up with claimed := s.blocks.up.claimed + 1 } } }) ∧
    (32 ≤ s.blocks.up.inUse → exec .frTakeTrunkFrame s = .next s)) ∧
  ∀ s : State, s.life = .running → s.agent.request.isSome = true ∨ s.agent.restart ≠ .none ∨ s.trunk.fifo = [] →
    exec .frTakeTrunkFrame s = .next s

/-- An address matches a route entry when the entry is enabled and every address bit that is 0 in its mask equals that bit of its match
value (R47). -/
def matchesEntry (e : RouteEntry) (a : Byte) : Prop :=
  e.enabled = true ∧ ∀ k : Nat, k < 7 → e.mask.getLsbD k = false → a.getLsbD k = e.matchValue.getLsbD k

/-- The entry for an address is the lowest-numbered enabled entry that the address matches, and there is none where none matches. A mask of
0 matches the match value alone, and a mask of 127 every address (R47). -/
def Obligations.RouteEntryForAnAddress : Prop :=
  (∀ (t : Tables) (a : Byte) (i : Fin 16), matchesEntry (t.routes.get i) a →
    (∀ j : Fin 16, j < i → ¬matchesEntry (t.routes.get j) a) → routeFor t a = some (t.routes.get i)) ∧
  (∀ (t : Tables) (a : Byte), (∀ i : Fin 16, ¬matchesEntry (t.routes.get i) a) → routeFor t a = none) ∧
  (∀ (e : RouteEntry) (a : Byte), e.enabled = true → a.toNat ≤ 127 → e.matchValue.toNat ≤ 125 → e.mask = 0 →
    (matchesEntry e a ↔ a = e.matchValue)) ∧
  ∀ (e : RouteEntry) (a : Byte), e.enabled = true → e.mask = 127 → matchesEntry e a

/-- A COMMAND or COMMAND-ACK whose code the part does not recognise, to an address its kind can be sent to. -/
def plainCommand (f : Frame) : Prop :=
  ((f.kind = 1 ∧ f.dest.toNat ≤ 125) ∨ (f.kind = 2 ∧ 1 ≤ f.dest.toNat ∧ f.dest.toNat ≤ 111)) ∧
    ∃ code more, f.payload = code :: more ∧ (code = 0 ∨ 4 < code.toNat)

/-- A SET-LEVEL or a mower command as R9 gives it, to an address its kind can be sent to. -/
def ownersCommand (f : Frame) : Prop :=
  ((f.kind = 1 ∧ f.dest.toNat ≤ 125) ∨ (f.kind = 2 ∧ 1 ≤ f.dest.toNat ∧ f.dest.toNat ≤ 111)) ∧ recognised f.kind f.payload

/-- The part with its oldest trunk frame taken. -/
def frameTaken (s : State) (rest : List FifoEntry) : State := { s with trunk := { s.trunk with fifo := rest } }

/-- The part with QUEUE-FULL noted for one branch: its send queue (1) or its poll-now list (2), and the destination dropped (R21, R31). -/
def fullNoted (b : Branch) (place : Nat) (f : Frame) (s : State) : State :=
  { s with blocks := withNotice (withLine s b { s.blocks.line b with queueFullSeen := true }).blocks 13 b.code place f.dest.toNat }

/-- A frame offered to a branch's send queue: dropped silently while the branch is not ON, and with QUEUE-FULL where the queue holds 16;
else the last entry, NORMAL (R21). -/
def offeredTo (b : Branch) (f : Frame) (s : State) : State :=
  let l := s.blocks.line b
  if s.blocks.supplyState b ≠ .on then s
  else if 16 ≤ l.queue.length then fullNoted b 1 f s
  else withLine s b { l with queue := l.queue ++ [⟨f, false, .trunk, l.nextArrival, false⟩], nextArrival := l.nextArrival + 1 }

/-- A frame offered to an entry's target set; to Branch A first where it is both (R52; the order is notes/assumptions/39.md). -/
def offeredToTargets (e : RouteEntry) (f : Frame) (s : State) : State :=
  match e.target with
  | .none => s
  | .onlyA => offeredTo .branchA f s
  | .onlyB => offeredTo .branchB f s
  | .both => offeredTo .branchB f (offeredTo .branchA f s)

/-- A POLL offered to a branch's poll-now list of 4 places, with its payload as received (R8, R31). -/
def polledAt (b : Branch) (f : Frame) (s : State) : State :=
  let l := s.blocks.line b
  if s.blocks.supplyState b ≠ .on then s
  else if 4 ≤ l.pollNow.length then fullNoted b 2 f s
  else withLine s b { l with pollNow := l.pollNow ++ [⟨f.dest, f.source, f.tag, f.payload⟩] }

/-- FR_TAKE_TRUNK_FRAME, routing: a COMMAND or COMMAND-ACK, and a POLL, is dropped with UNROUTED where no entry is for its destination, and
silently under an entry of target set none, whatever its intercept. Else a command of a code the part does not recognise, and under an entry
with intercept clear a SET-LEVEL or mower command too, whatever drive or mower it would reach, joins the send queue of each branch of the
target set as a NORMAL entry, and a POLL the poll-now list of one branch, Branch A of both, with its payload as received; a queue or list
that is full drops it with QUEUE-FULL, and a branch that is not ON silently (R8, R21, R31, R48, R49, R52). That Branch A is offered the
frame first is the model's choice (notes/assumptions/39.md), and that a POLL keeps its payload is read from R8 (notes/assumptions/38.md). -/
def Obligations.TrunkFramesAreRouted : Prop :=
  ∀ (s : State) (f : Frame) (isl : Bool) (rest : List FifoEntry), routerTakes s ⟨f, isl⟩ rest → s.blocks.agenda = [] →
    let s' := frameTaken s rest
    let isPoll := f.kind = 3 ∧ 1 ≤ f.dest.toNat ∧ f.dest.toNat ≤ 111
    (plainCommand f ∨ ownersCommand f ∨ isPoll → routeFor s.tables f.dest = none →
      exec .frTakeTrunkFrame s = .next { s' with blocks := withNotice s.blocks 14 f.dest.toNat f.kind.toNat 0 }) ∧
    ∀ e, routeFor s.tables f.dest = some e →
      (plainCommand f ∨ (ownersCommand f ∧ e.intercept = false) →
        exec .frTakeTrunkFrame s = .next (offeredToTargets e f s')) ∧
      (plainCommand f ∨ ownersCommand f ∨ isPoll → e.target = .none → exec .frTakeTrunkFrame s = .next s') ∧
      (isPoll →
        (e.target = .onlyB → exec .frTakeTrunkFrame s = .next (polledAt .branchB f s')) ∧
        (e.target = .onlyA ∨ e.target = .both → exec .frTakeTrunkFrame s = .next (polledAt .branchA f s')))

/-- A drive claims a SET-LEVEL by its binding's destination and output index (R50). -/
def claimsLevel (t : Tables) (f : Frame) (output : Byte) (d : Fin 24) : Prop :=
  (t.binds.get d).dest ≠ 0 ∧ (t.binds.get d).dest = f.dest ∧ (t.binds.get d).output = output.toNat

/-- A mower owns an address by its record: enabled, with that mower node or dock node address, the lowest-numbered such (R51). -/
def ownsAddress (t : Tables) (a : Byte) (m : Fin 4) : Prop :=
  let owns := fun n => (t.mowers.get n).enabled = true ∧ ((t.mowers.get n).node = a ∨ (t.mowers.get n).dock = a)
  owns m ∧ ∀ n, n < m → ¬owns n

/-- FR_TAKE_TRUNK_FRAME under an entry with intercept set. A SET-LEVEL that drives claim: one not in MANUAL owns it, and DRIVE-OWNED is posted
once with the lowest-numbered such; where every claiming drive is in MANUAL each takes the level as its manual level, unless it is above
the drive's max level, and no send queue takes a trunk frame; one that no drive claims is forwarded (R50, R83). A mower command to an
address that a mower owns: MOWER-GO and CHARGE are dropped with MOWER-OWNED, and MOWER-HOME is a recall of that mower, which makes an
OUTBOUND, MOWING or HALTED mower home owed and leaves an ABSENT, DOCKED, CHARGING, INBOUND or LOST one alone; to any other address it is
forwarded (R51, R169). Forwarding to both branches takes Branch A first (notes/assumptions/39.md). -/
def Obligations.CommandsAreInterceptedForTheirOwners : Prop :=
  ∀ (s : State) (f : Frame) (isl : Bool) (rest : List FifoEntry) (e : RouteEntry),
    routerTakes s ⟨f, isl⟩ rest → s.blocks.agenda = [] → routeFor s.tables f.dest = some e → e.target ≠ .none → e.intercept = true →
    let s' := frameTaken s rest
    let noneForwarded := fun t : State => ∀ b, ∀ x ∈ (t.blocks.line b).queue, x.origin = .trunk → x ∈ (s.blocks.line b).queue
    (∀ output level : Byte, f.kind = 1 → f.dest.toNat ≤ 125 → f.payload = [1, output, level] → output.toNat ≤ 3 →
      (∀ d, claimsLevel s.tables f output d → (s.tables.shapes.get d).mode ≠ .manual →
        (∀ c, c < d → claimsLevel s.tables f output c → (s.tables.shapes.get c).mode = .manual) →
        exec .frTakeTrunkFrame s = .next { s' with blocks := withNotice s.blocks 5 d.val f.dest.toNat level.toNat }) ∧
      ((∀ d, ¬claimsLevel s.tables f output d) → exec .frTakeTrunkFrame s = .next (offeredToTargets e f s')) ∧
      ((∃ d, claimsLevel s.tables f output d) →
        (∀ d, claimsLevel s.tables f output d → (s.tables.shapes.get d).mode = .manual) →
        ∃ t, exec .frTakeTrunkFrame s = .next t ∧ eventFrame s' t ∧ noneForwarded t ∧
          ∀ d, (claimsLevel s.tables f output d → level.toNat ≤ (s.tables.limits.get d).maxLevel →
              (t.blocks.drive d).manual = level.toNat) ∧
            (¬claimsLevel s.tables f output d ∨ (s.tables.limits.get d).maxLevel < level.toNat →
              (t.blocks.drive d).manual = (s.blocks.drive d).manual))) ∧
    (f.kind = 2 → 1 ≤ f.dest.toNat → f.dest.toNat ≤ 111 → recognised 2 f.payload →
      ((∀ m, ¬ownsAddress s.tables f.dest m) → exec .frTakeTrunkFrame s = .next (offeredToTargets e f s')) ∧
      ∀ m, ownsAddress s.tables f.dest m →
        let x := s.blocks.mower m
        (∀ code more, f.payload = code :: more → code ≠ 3 →
          exec .frTakeTrunkFrame s = .next { s' with blocks := withNotice s.blocks 18 m.val code.toNat f.dest.toNat }) ∧
        (f.payload = [3] →
          (x.state = .absent ∨ x.state = .docked ∨ x.state = .charging ∨ x.state = .inbound ∨ x.state = .lost →
            exec .frTakeTrunkFrame s = .next s') ∧
          ∃ t, exec .frTakeTrunkFrame s = .next t ∧ eventFrame s' t ∧ noneForwarded t ∧
            (x.state = .outbound ∨ x.state = .mowing ∨ x.state = .halted →
              (t.blocks.mower m).homeOwed = true ∧ (t.blocks.mower m).state = x.state)))

/-- A channel takes a value from an answer: enabled, bound to its branch, its source and a value it has (R62). -/
def bindsTo (t : Tables) (b : Branch) (f : Frame) (c : Fin 16) (v : Int) : Prop :=
  let k := t.channels.get c
  c.val < 12 ∧ k.enabled = true ∧ k.branch = b ∧ k.node = f.source ∧ (frameValues f)[k.valueIndex]? = some v

/-- A good answer hands each bound channel its value, and is then judged for forwarding (R53, R62). An answer to a trunk POLL or to a
forwarded COMMAND-ACK goes up whatever the routes say; an ordinary one goes up when its source's entry has report-up set and either no
channel is bound to it, or some bound channel's value has moved by its forward deadband or has never been forwarded, or the status differs
from the last one forwarded, or 240 rounds have passed since the last REPORT (R55, R56). A REPORT that finds a place is the last frame of
the queue, and the source's forwarding record and its channels' last forwarded values become those of this answer; one dropped is counted
and changes no record; an answer that does not go up changes nothing (R8, R57). -/
def Obligations.AnswersReachChannelsAndTheTrunk : Prop :=
  ∀ (t : Tables) (now : Round) (b : Branch) (f : Frame) (g : Blocks),
    (∀ mark, (takeGoodAnswer t b mark f g).1 = g ∧ (takeGoodAnswer t b mark f g).2.getLast? = some (.forward b mark f) ∧
      ∀ c v, Task.newValue c v ∈ (takeGoodAnswer t b mark f g).2 ↔ bindsTo t b f c v) ∧
    goesUp t now b .trunkPoll f g = true ∧ goesUp t now b .forwardedCommand f g = true ∧
    (routeFor t f.source = none → goesUp t now b .ordinary f g = false) ∧
    (∀ e, routeFor t f.source = some e →
      (goesUp t now b .ordinary f g = true ↔ e.reportUp = true ∧
        ((∀ c v, ¬bindsTo t b f c v) ∨
          (∃ c v, bindsTo t b f c v ∧ ((g.channel c).lastForwarded = none ∨
            ∃ w, (g.channel c).lastForwarded = some w ∧ (t.channels.get c).deadband ≤ (v - w).natAbs)) ∨
          (forwardRecord g f.source).status ≠ some (answerStatus f) ∨
          (forwardRecord g f.source).round = none ∨
          ∃ r, (forwardRecord g f.source).round = some r ∧ 240 ≤ r.overdue now))) ∧
    ∀ mark, let h := (forwardAnswer t now b mark f g).1
      (goesUp t now b mark f g = false → h = g) ∧
      (goesUp t now b mark f g = true → g.up.hasRoom = false → h = { g with up := { g.up with lost := min 255 (g.up.lost + 1) } }) ∧
      (goesUp t now b mark f g = true → g.up.hasRoom = true →
        h.up = { g.up with queue := g.up.queue ++ [⟨⟨126, f.source, 5, f.tag, f.payload⟩, false⟩] } ∧
        (f.source.toNat ≤ 111 → forwardRecord h f.source = ⟨some (answerStatus f), some ⟨now, false⟩⟩) ∧
        ∀ c, (∀ v, bindsTo t b f c v → h.channel c = { g.channel c with lastForwarded := some v }) ∧
          ((∀ v, ¬bindsTo t b f c v) → h.channel c = g.channel c))

/-! ## Management requests (chapter 10) -/

/-- The code of a yes/no field. -/
def yesByte (x : Bool) : Byte := if x then 1 else 0

/-- A set sent as bits, its first member in bit 0 (R15). -/
def setByte (bits : List Bool) : Byte := byteOf ((bits.zipIdx.map fun x => if x.1 then 2 ^ x.2 else 0).sum)

/-- The entries of the read-only tables 15–20, field by field (R15), with the codes and flag places of R16. -/
def readOnlyLaidOut (t : Tables) (g : Blocks) : Prop :=
  let flags := fun (x : Flags) => setByte [x.lowAlarm, x.lowWarn, x.highWarn, x.highAlarm]
  let none255 := fun (z : Option (Fin 32)) => (z.map fun n => byteOf n.val).getD 255
  let row := fun (present : Bool) (b : Branch) (r : LoadRow) =>
    if present then
      [1, byteOf b.code, byteOf r.cls.rank, byteOf r.wanted, byteOf r.granted] ++ bytes16 r.current ++ [setByte [r.shed, r.limited]]
    else [0, 0, 0, 0, 0, 0, 0, 0]
  let node := fun (k : PollEntry) (x : PollRun) => [k.node, x.presence.byte, byteOf x.misses] ++ bytes16 x.garbles
  let line := fun (l : Line) => bytes16 l.collisions ++ bytes16 l.unsolicited ++ [byteOf l.queue.length]
  (∀ c : Fin 16, let x := g.channel c
    entryBytes t g c.val .channelState = bytesSigned x.value ++ [x.state.byte, flags x.live, flags x.latched] ++ bytes16 x.rounds ++
      bytesSigned (x.lastForwarded.getD 0)) ∧
  (∀ d : Fin 24, let x := g.drive d
    entryBytes t g d.val .driveState = [(t.shapes.get d).mode.byte, byteOf x.manual, byteOf x.showLevel, byteOf x.base, byteOf x.wanted,
      byteOf x.granted, byteOf x.lastSent, yesByte x.sentKnown,
      setByte [x.overMax, x.tripped, x.shed, x.limited, x.sprayCapped, x.transit, x.pending, x.unpowered]]) ∧
  (∀ d : Fin 24, entryBytes t g d.val .loadState =
    row (decide ((t.binds.get d).dest ≠ 0)) (t.binds.get d).branch (g.slu.drives.get d)) ∧
  (∀ m : Fin 4, entryBytes t g (24 + m.val) .loadState = row (t.mowers.get m).enabled (t.mowers.get m).branch (g.slu.charges.get m)) ∧
  (∀ i : Fin 32, entryBytes t g i.val .nodeState = node (t.polls.forA.get i) (g.lines.forA.polls.get i) ∧
    entryBytes t g (32 + i.val) .nodeState = node (t.polls.forB.get i) (g.lines.forB.polls.get i)) ∧
  entryBytes t g 64 .nodeState = line g.lines.forA ∧ entryBytes t g 65 .nodeState = line g.lines.forB ∧
  (∀ m : Fin 4, let x := g.mower m
    entryBytes t g m.val .mowerState = [byteOf x.state.code, none255 x.assigned] ++ bytes16 x.stint ++
      [x.lastMode.byte, byteOf x.lastZone, byteOf x.lastBattery,
        yesByte (decide (x.state = .docked ∨ x.state = .charging) && decide (x.lastBattery < 100)), byteOf x.retry,
        none255 (g.zones.transitZones.get m)]) ∧
  entryBytes t g 4 .mowerState = [yesByte g.mowers.held, byteOf g.mowers.pointer, 0, 0, 0, 0, 0, 0, 0, 0] ∧
  (∀ z : Fin 32, let x := g.zone z
    entryBytes t g z.val .zoneState = [setByte [x.rain, x.wet, x.spray, x.rainNoData || x.wetNoData, x.manual],
      setByte [x.occupiedBy 0, x.occupiedBy 1, x.occupiedBy 2, x.occupiedBy 3], byteOf x.transitCount] ++ bytes16 x.holdRemaining) ∧
  entryBytes t g 32 .zoneState = bytes16 g.zones.dryOffRemaining ++ [0, 0, 0]

/-- The codes of R16, each list in the order of its codes. -/
def codesInOrder : Prop :=
  [ChannelState.empty, .fresh, .stale].map ChannelState.byte = [0, 1, 2] ∧
    [Presence.unknown, .present, .absent].map Presence.byte = [0, 1, 2] ∧
    [DriveMode.off, .auto, .manual, .inShow].map DriveMode.byte = [0, 1, 2, 3] ∧
    [LoadClass.ambient, .charge, .showLoad, .water, .safety].map LoadClass.rank = [0, 1, 2, 3, 4] ∧
    [SupplyState.off, .on, .tripped].map SupplyState.code = [0, 1, 2] ∧
    [MowerMode.docked, .driving, .cutting, .fault].map MowerMode.byte = [0, 1, 2, 3] ∧
    [MowerState.absent, .docked, .charging, .assigned, .outbound, .mowing, .inbound, .halted, .lost].map MowerState.code =
      [0, 1, 2, 3, 4, 5, 6, 7, 8]

/-- BAD_REQUEST_CODE, IDENTIFY and STATUS: a request of code 0 or above 19 is answered BAD-VALUE, and IDENTIFY with DONE and its 16 bytes,
neither with another effect; STATUS with its 20 bytes as the state stands, byte 2 as the island record stood when the request's last byte
arrived, the two queue-full-seen flags then cleared and nothing else changed (R12, R13, R182). The entries of the read-only tables 15–20
are laid out field by field as R15 gives, with the codes and flag places of R16. -/
def Obligations.IdentityAndStatusAreReported : Prop :=
  (∀ (s : State) (r : Request), taken s r →
    (r.code = 0 ∨ 19 < r.code → exec .badRequestCode s = .next (replied s (replyTo r 5 0 []))) ∧
    (r.code = 17 → exec .identify s = .next (replied s
      (replyTo r 0 0 [0x7A, 0x21, 0x03, 0x40, 1, 16, 32, 16, 24, 8, 32, 64, 4, 32, 64, 4]))) ∧
    (r.code = 18 →
      let g := s.blocks
      let shows := setByte [g.cues.running.get 0, g.cues.running.get 1, g.cues.running.get 2, g.cues.running.get 3]
      exec .status s = .next (replied
        { s with blocks := { g with lines :=
          ⟨{ g.lines.forA with queueFullSeen := false }, { g.lines.forB with queueFullSeen := false }⟩ } }
        (replyTo r 0 0 ([byteOf (g.supplyState .branchA).code, byteOf (g.supplyState .branchB).code, yesByte r.island,
          yesByte g.mowers.held, shows, yesByte g.lines.forA.queueFullSeen, yesByte g.lines.forB.queueFullSeen,
          yesByte s.agent.commit.isSome, yesByte s.agent.imageValid, byteOf g.up.lost] ++ bytes16 s.trunk.errors ++
          bytes16 s.trunk.formats ++ bytes16 s.trunk.overflows ++ [byteOf (g.mower 0).state.code, byteOf (g.mower 1).state.code,
          byteOf (g.mower 2).state.code, byteOf (g.mower 3).state.code]))))) ∧
  codesInOrder ∧ ∀ (t : Tables) (g : Blocks), readOnlyLaidOut t g

/-- READ: a table id of 0 or above 20 is BAD-TABLE, a range beyond the table's entries BAD-INDEX, and any other READ returns as many of
the entries asked for as 20 bytes hold, as they stand; nothing else changes (R173, R174). -/
def Obligations.ReadReturnsTheEntries : Prop :=
  ∀ (s : State) (r : Request), taken s r → r.code = 1 →
    (r.table = 0 ∨ 20 < r.table → exec .read s = .next (replied s (replyTo r 3 0 []))) ∧
    ∀ k, allTables[r.table - 1]? = some k → 1 ≤ r.table →
      (k.entries < r.first + r.count → exec .read s = .next (replied s (replyTo r 4 0 []))) ∧
      (r.first + r.count ≤ k.entries →
        let n := min r.count (20 / k.size)
        exec .read s = .next (replied s (replyTo r 0 n
          ((List.range n).flatMap fun i => entryBytes s.tables s.blocks (r.first + i) k))))

/-- The rows that answer a WRITE of a read-write table, each with its table id. -/
def writeRows : List (Instr × Nat) :=
  [(.writeRoute, 1), (.writePoll, 2), (.writePoll, 3), (.writeChannel, 4), (.writeDriveBind, 5), (.writeDriveShape, 6),
    (.writeDriveLimit, 7), (.writeCurve, 8), (.writeCue, 9), (.writeZone, 10), (.writeRotation, 11), (.writeMower, 12),
    (.writeSupply, 13), (.writeGlobal, 14)]

/-- Two enabled records of four have an address in common (R151). -/
def addressesShared (mowers : Table MowerConfig 4) : Prop :=
  ∃ i j : Fin 4, i ≠ j ∧ (mowers.get i).enabled = true ∧ (mowers.get j).enabled = true ∧
    ((mowers.get i).node = (mowers.get j).node ∨ (mowers.get i).node = (mowers.get j).dock ∨
      (mowers.get i).dock = (mowers.get j).dock)

/-- A byte that names one of `n` things or, with 255, none, and does neither. -/
def namesNothing (n x : Nat) : Prop := n ≤ x ∧ x ≠ 255

/-- The bytes of entry `i` of a table hold a value that the owner refuses (R16, R30, R46, R59, R76, R78, R79, R121, R136, R137, R151, R153,
R176). A destination above 127 is refused with 126 and 127 (notes/assumptions/15.md). -/
def refusedValue (table i : Nat) (e : List Byte) : Prop :=
  let x := fun k => (e.getD k 0).toNat
  let pair := fun k => 256 * x k + x (k + 1)
  match table with
  | 1 => 125 < x 1 ∨ 3 < x 3
  | 2 => 111 < x 0 ∨ x 1 = 0 ∨ 240 < x 1
  | 3 => 111 < x 0 ∨ x 1 = 0 ∨ 240 < x 1
  | 4 => pair 4 = 0 ∨ 32767 < pair 15 ∨ 1 < x 1 ∨ (i < 12 ∧ (111 < x 2 ∨ 10 < x 3 ∨ (x 0 ≠ 0 ∧ x 2 = 0)))
  | 5 => 1 < x 0 ∨ 125 < x 1 ∨ 3 < x 2 ∨ 2 < x 3
  | 6 => 3 < x 0 ∨ 15 < x 1 ∨ pair 4 = 0 ∨ 4095 < pair 4 ∨ 7 < x 6 ∨ namesNothing 16 (x 7) ∨ namesNothing 16 (x 9) ∨
      namesNothing 16 (x 11) ∨ 1 < x 12
  | 7 => 240 < x 6
  | 9 => 3 < x 1 ∨ 39 < x 2 ∨ x 3 = 0 ∨ 240 < x 3 ∨ x 3 ≤ x 4 ∨ x 5 = 0 ∨ 7 < x 5 ∨ 15 < x 6 ∨ 1 < x 7 ∨ (x 7 = 0 ∧ 23 < x 8) ∨
      (x 7 = 1 ∧ (1 < x 8 ∨ 125 < x 9 ∨ x 10 = 0 ∨ 8 < x 10 ∨ x 11 = 2 ∨ x 11 = 3 ∨ x 11 = 4 ∨ (x 11 = 1 ∧ (x 10 ≠ 3 ∨ 3 < x 12))))
  | 10 => 3 < x 0 ∨ namesNothing 16 (x 2) ∨ x 3 = 0 ∨ 240 < x 3 ∨ namesNothing 24 (x 4) ∨ 2400 < pair 5
  | 11 => (i < 64 ∧ 31 < x 0) ∨ (i = 64 ∧ (x 0 = 0 ∨ 64 < x 0))
  | 12 => 1 < x 1 ∨ 111 < x 2 ∨ 111 < x 3 ∨ 2000 < pair 4 ∨ 100 < x 6 ∨ 100 < x 7 ∨ (x 0 ≠ 0 ∧ (x 2 = 0 ∨ x 3 = 0)) ∨ x 2 = x 3
  | 14 => namesNothing 16 (x 0) ∨ namesNothing 16 (x 1) ∨ namesNothing 16 (x 2)
  | _ => False

/-- The checks every WRITE passes first, whichever row answers it: BUSY while a commit is in flight, BAD-TABLE for an unknown or read-only
table, BAD-INDEX beyond the table's entries, BAD-VALUE for too few data bytes; and then, in its table's row, BAD-VALUE where any of its
entries, first, last or between, holds a value its owner refuses. A request that fails one is answered so, and nothing of it is written;
nor does one of count 0, which is answered DONE (R16, R173, R175, R176, R181). That a branch code above 1 is refused for channels 12–15 too is
read from the manual by inference (notes/assumptions/28.md). -/
def Obligations.WritesAreCheckedFirst : Prop :=
  ∀ (s : State) (r : Request) (c : Instr), taken s r → r.code = 2 → c = .write ∨ (c, r.table) ∈ writeRows →
    (s.agent.commit.isSome = true → exec c s = .next (replied s (replyTo r 2 0 []))) ∧
    (s.agent.commit = none → r.table = 0 ∨ 14 < r.table → exec c s = .next (replied s (replyTo r 3 0 []))) ∧
    ∀ k, s.agent.commit = none → allTables[r.table - 1]? = some k → 1 ≤ r.table → r.table ≤ 14 →
      (k.entries < r.first + r.count → exec c s = .next (replied s (replyTo r 4 0 []))) ∧
      (r.first + r.count ≤ k.entries → r.data.length < r.count * k.size →
        exec c s = .next (replied s (replyTo r 5 0 []))) ∧
      (r.first + r.count ≤ k.entries → r.count * k.size ≤ r.data.length → (c, r.table) ∈ writeRows →
        ((∃ n, n < r.count ∧ refusedValue r.table (r.first + n) ((r.data.drop (n * k.size)).take k.size)) →
          exec c s = .next (replied s (replyTo r 5 0 []))) ∧
        (r.count = 0 → s.blocks.agenda = [] → ¬(r.table = 12 ∧ addressesShared s.tables.mowers) →
          exec c s = .next (replied s (replyTo r 0 0 []))))

/-- What an accepted WRITE of one entry comes to: the tables hold the entry and nothing else of them changes, the answer is DONE with count
1 at the end of the upstream queue, and everything outside the blocks is left alone. That the answer follows the notices its request sets
off is the model's choice (notes/assumptions/29.md). -/
def accepted (c : Instr) (s : State) (r : Request) (tables : Tables) : Prop :=
  ∃ t, exec c s = .next t ∧ requestFrame s t ∧ t.tables = tables ∧ lastUp t (replyTo r 0 1 [])

/-- The run fields of a poll-table entry that takes a new address (R30): due from the current round, its presence record a copy of the one of
the first other entry that holds the address, and fresh where none does or the entry is given up. -/
def startsAfresh (s : State) (b : Branch) (i : Fin 32) (node : Byte) (y : PollRun) : Prop :=
  let holds := fun n => n ≠ i ∧ ((s.tables.polls.get b).get n).node = node
  (node = 0 ∨ (∀ n, ¬holds n) → y = ⟨⟨s.clock.round, false⟩, .unknown, 0, 0⟩) ∧
    ∀ n, node ≠ 0 → holds n → (∀ k, k < n → ¬holds k) → y = { (s.blocks.line b).polls.get n with nextDue := ⟨s.clock.round, false⟩ }

/-- An address no longer polled is told to the Measurement Unit, whose FRESH enabled channels on it become STALE with one report each, others
left as they are; no mower is concerned (R30, R66, R168). -/
def unpolledTaken (t : Tables) (now : Round) (b : Branch) (node : Byte) (g : Blocks) : Prop :=
  let p := handle t now (.unpolled b node) g
  p.1 = g ∧
    (∀ e, e ∈ p.2 ↔ ∃ c : Fin 12,
      let k := t.channels.get (boundChannel c)
      e = .goStale (boundChannel c) ∧ k.enabled = true ∧ k.branch = b ∧ k.node = node) ∧
    ∀ c : Fin 16,
      let x := g.channel c
      (x.state = .fresh → handle t now (.goStale c) g =
        ({ g with channels := g.channels.set c { x with state := .stale } }, [.report ⟨c, x.value, .stale, x.live, .stale⟩])) ∧
      (x.state ≠ .fresh → handle t now (.goStale c) g = (g, []))

/-- WRITE of ROUTE, ROTATION, POLL-A and POLL-B. Every entry of a ROUTE request is stored at its index, the answer is DONE with their count,
and nothing else changes. A ROTATION entry is stored, and so is an active length, at or beyond which a pointer becomes 0. A poll-table
entry is stored; one that keeps its address keeps its next-due round and presence record and changes nothing in the blocks. One that changes
it is due from the current round, with a fresh presence record or a copy of another entry's of the address, and changes nothing else in the
blocks but for what an old address that no entry holds any longer sets off, which is told to the channels (R30, R46, R66, R153, R175). That
the answer to a WRITE of a poll-table entry comes after the notices it sets off is the model's choice
(notes/assumptions/29.md). -/
def Obligations.RouteRotationAndPollWritesAreStored : Prop :=
  (∀ (s : State) (r : Request), taken s r → s.agent.commit = none →
    (∀ (es : List RouteEntry) (more : List Byte), (∀ e ∈ es, e.wellFormed) → r.code = 2 → r.table = 1 → r.count = es.length →
      r.first + r.count ≤ 16 → r.data = es.flatMap RouteEntry.bytes ++ more →
      ∃ routes, exec .writeRoute s = .next (replied { s with tables := { s.tables with routes := routes } } (replyTo r 0 r.count [])) ∧
        ∀ i : Fin 16, routes.get i =
          if r.first ≤ i.val then (es[i.val - r.first]?).getD (s.tables.routes.get i) else s.tables.routes.get i) ∧
    (∀ (i : Fin 64) (z : Fin 32), writesOne r 11 i.val [byteOf z.val] →
      exec .writeRotation s = .next (replied { s with tables := { s.tables with rotation := s.tables.rotation.set i z } }
        (replyTo r 0 1 []))) ∧
    (∀ n : Nat, 1 ≤ n → n ≤ 64 → writesOne r 11 64 [byteOf n] →
      exec .writeRotation s = .next (replied { s with
        tables := { s.tables with rotationLength := n }
        blocks := { s.blocks with mowers := { s.blocks.mowers with
          pointer := if n ≤ s.blocks.mowers.pointer then 0 else s.blocks.mowers.pointer } } } (replyTo r 0 1 []))) ∧
    ∀ (b : Branch) (i : Fin 32) (e : PollEntry), e.wellFormed → writesOne r (2 + b.code) i.val e.bytes →
      let tables := { s.tables with polls := s.tables.polls.set b ((s.tables.polls.get b).set i e) }
      accepted .writePoll s r tables ∧
        (s.blocks.agenda = [] → ((s.tables.polls.get b).get i).node = e.node →
          exec .writePoll s = .next (replied { s with tables := tables } (replyTo r 0 1 []))) ∧
        (s.blocks.agenda = [] → ((s.tables.polls.get b).get i).node ≠ e.node →
          let l := s.blocks.line b
          let old := ((s.tables.polls.get b).get i).node
          let held := ∃ n, n ≠ i ∧ ((s.tables.polls.get b).get n).node = old
          ∃ y, startsAfresh s b i e.node y ∧
            let moved := withLine { s with tables := tables } b { l with polls := l.polls.set i y }
            (old = 0 ∨ held → exec .writePoll s = .next (replied moved (replyTo r 0 1 []))) ∧
            (old ≠ 0 → ¬held → exec .writePoll s = .next (replied { moved with
              blocks := settleActs tables s.clock.round (moved.blocks, [.unpolled b old]) } (replyTo r 0 1 []))))) ∧
  ∀ (t : Tables) (now : Round) (b : Branch) (node : Byte) (g : Blocks), unpolledTaken t now b node g

/-- CHANNEL-FLAG for each flag of a channel that changed: HIGH-ALARM, HIGH-WARN, LOW-WARN, LOW-ALARM, with its number, negative where it
cleared, and the value (R14, R71). -/
def flagsTold (c : Fin 16) (v : Int) (was is : Flags) (g : Blocks) : Blocks :=
  ([(4, was.highAlarm, is.highAlarm), (3, was.highWarn, is.highWarn), (2, was.lowWarn, is.lowWarn),
      (1, was.lowAlarm, is.lowAlarm)] : List (Int × Bool × Bool)).foldl
    (fun h x => if x.2.1 = x.2.2 then h else withNotice h 2 c.val v (if x.2.2 then x.1 else -x.1)) g

/-- A change of thresholds or hysteresis reaches a channel of unchanged binding (R69): in FRESH its live flags are evaluated at its value, from
the flags as they stood, each set one latched too, with one report of cause FLAGS and its notices where any changed; nothing otherwise. -/
def reevaluated (t : Tables) (c : Fin 16) (old : ChannelConfig) (g : Blocks) : Prop :=
  let new := t.channels.get c
  let x := g.channel c
  let live := evaluateFlags new x.value x.live
  let changes := x.state = .fresh ∧ live ≠ x.live
  let latched : Flags := ⟨x.latched.lowAlarm || live.lowAlarm, x.latched.lowWarn || live.lowWarn, x.latched.highWarn || live.highWarn,
    x.latched.highAlarm || live.highAlarm⟩
  (¬changes → channelWritten t c old g = (g, [])) ∧
    (changes → channelWritten t c old g =
      (flagsTold c x.value x.live live { g with channels := g.channels.set c { x with live := live, latched := latched } },
        [.report ⟨c, x.value, .fresh, live, .flags⟩]))

/-- WRITE of a CHANNEL entry is stored, unless it moves the binding of an enabled bound channel; then it is REFUSED with no other effect.
The Measurement Unit takes the entry written, and the request is answered when all that follows has been done. An entry that keeps binding,
thresholds and hysteresis changes nothing in the blocks, one that changes the binding makes the channel EMPTY, with one report of cause
EMPTIED, and one that changes only thresholds or hysteresis evaluates a FRESH channel's live flags anew (R59, R60, R69). That the notices of
the flags come before the report is the model's choice (notes/assumptions/39.md), and so is that the answer comes after the CHANNEL-FLAG and
other notices of the write (notes/assumptions/29.md). -/
def Obligations.ChannelWritesAreStored : Prop :=
  (∀ (s : State) (r : Request) (i : Fin 16) (e : ChannelConfig), taken s r → s.agent.commit = none → e.wellFormed i.val →
    writesOne r 4 i.val (ChannelConfig.bytes i.val e) →
    let old := s.tables.channels.get i
    let moves := i.val < 12 ∧ old.enabled = true ∧ ¬(old.branch = e.branch ∧ old.node = e.node ∧ old.valueIndex = e.valueIndex)
    let tables := { s.tables with channels := s.tables.channels.set i e }
    (moves → exec .writeChannel s = .next (replied s (replyTo r 6 0 []))) ∧
    (¬moves → accepted .writeChannel s r tables ∧
      exec .writeChannel s = .next (replied { s with
        tables := tables, blocks := settleActs tables s.clock.round (channelWritten tables i old s.blocks) } (replyTo r 0 1 []))) ∧
    (¬moves → s.blocks.agenda = [] → e = { old with staleLimit := e.staleLimit, deadband := e.deadband } →
      exec .writeChannel s = .next (replied { s with tables := tables } (replyTo r 0 1 [])))) ∧
  ∀ (t : Tables) (c : Fin 16) (old : ChannelConfig) (g : Blocks),
    let new := t.channels.get c
    let same := old.enabled = new.enabled ∧ old.branch = new.branch ∧ old.node = new.node ∧ old.valueIndex = new.valueIndex
    (same → ¬(old.highAlarm = new.highAlarm ∧ old.highWarn = new.highWarn ∧ old.lowWarn = new.lowWarn ∧ old.lowAlarm = new.lowAlarm ∧
      old.hysteresis = new.hysteresis) → reevaluated t c old g) ∧
    (¬same →
      ((channelWritten t c old g).1).channel c = ⟨0, .empty, Flags.clear, Flags.clear, 0, none⟩ ∧
        (∀ e, e ≠ c → ((channelWritten t c old g).1).channel e = g.channel e) ∧
        (channelWritten t c old g).2 = [.report ⟨c, 0, .empty, Flags.clear, .emptied⟩])

/-- WRITE of a drive's DRIVE-BIND, DRIVE-SHAPE and DRIVE-LIMIT entry and of CURVE points, one or several, is stored; a changed binding of a
drive that is not OFF is REFUSED with no other effect, and a rated current above 1000 is stored as 1000 with DONE-CLAMPED (R77–R79, R81,
R175–R177). That the answer comes after the notices of the recomputations is the model's choice (notes/assumptions/29.md). -/
def Obligations.DriveTableWritesAreStored : Prop :=
  ∀ (s : State) (r : Request) (d : Fin 24), taken s r → s.agent.commit = none →
    (∀ e : DriveBind, e.wellFormed → writesOne r 5 d.val e.bytes →
      let forbidden := s.tables.binds.get d ≠ e ∧ (s.tables.shapes.get d).mode ≠ .off
      (forbidden → exec .writeDriveBind s = .next (replied s (replyTo r 6 0 []))) ∧
      (¬forbidden → accepted .writeDriveBind s r { s.tables with binds := s.tables.binds.set d e })) ∧
    (∀ e : DriveShape, e.wellFormed → writesOne r 6 d.val e.bytes →
      accepted .writeDriveShape s r { s.tables with shapes := s.tables.shapes.set d e }) ∧
    (∀ e : DriveLimit, e.wellFormed → writesOne r 7 d.val e.bytes →
      accepted .writeDriveLimit s r { s.tables with limits := s.tables.limits.set d e }) ∧
    (∀ e : DriveLimit, ∀ n : Nat, e.wellFormed → 1000 < n → n ≤ 65535 → writesOne r 7 d.val ({ e with rated := n }.bytes) →
      ∃ t, exec .writeDriveLimit s = .next t ∧ requestFrame s t ∧ lastUp t (replyTo r 1 1 []) ∧
        t.tables = { s.tables with limits := s.tables.limits.set d { e with rated := 1000 } }) ∧
    (∀ (c : Fin 8) (p : Fin 32) (level : Nat), level ≤ 255 → writesOne r 8 (c.val * 32 + p.val) [byteOf level] →
      accepted .writeCurve s r { s.tables with
        curves := s.tables.curves.set c ((s.tables.curves.get c).set p level) }) ∧
    ∀ levels more : List Byte, r.code = 2 → r.table = 8 → r.count = levels.length → r.first + r.count ≤ 256 → r.data = levels ++ more →
      ∃ t, exec .writeCurve s = .next t ∧ requestFrame s t ∧ lastUp t (replyTo r 0 r.count []) ∧
        t.tables = { s.tables with curves := t.tables.curves } ∧
        ∀ (c : Fin 8) (p : Fin 32),
          let old := (s.tables.curves.get c).get p
          let n := c.val * 32 + p.val
          (t.tables.curves.get c).get p =
            if r.first ≤ n then ((levels[n - r.first]?).map BitVec.toNat).getD old else old

/-- WRITE of a CUE entry is stored. A changed entry resets the cue's run state to its phase and withdraws what was drawn; an entry left as
it stood keeps the run state; the run states of the other cues, the shows and the upstream queue but for the reply are left alone (R121). -/
def Obligations.CueWritesAreStored : Prop :=
  ∀ (s : State) (r : Request) (c : Fin 64) (e : CueConfig), taken s r → s.agent.commit = none → s.blocks.agenda = [] → e.wellFormed →
    writesOne r 9 c.val e.bytes →
    ∃ t, exec .writeCue s = .next t ∧ requestFrame s t ∧ t.tables = { s.tables with cues := s.tables.cues.set c e } ∧
      t.blocks.up = (withReply s.blocks (replyTo r 0 1 [])).up ∧ t.blocks.cues.running = s.blocks.cues.running ∧
      t.blocks.cueRun c = (if s.tables.cues.get c = e then s.blocks.cueRun c else ⟨e.phase, false, 0, 0, false⟩) ∧
      (∀ k, k ≠ c → t.blocks.cueRun k = s.blocks.cueRun k) ∧
      t.blocks.channels = s.blocks.channels ∧ t.blocks.drives = s.blocks.drives ∧ t.blocks.slu = s.blocks.slu ∧
      t.blocks.zones = s.blocks.zones ∧ t.blocks.mowers = s.blocks.mowers

/-- WRITE of a ZONE, GLOBAL, SUPPLY and MOWER entry. A ZONE entry is stored. So is the GLOBAL entry, a dry-off above 14400 as 14400 and a
silence timeout below 8 as 8 or above 2400 as 2400, with DONE-CLAMPED where one is; a silence timer that runs keeps its remaining rounds, as
the whole trunk is left alone. A SUPPLY entry is stored, a budget above 2000 as 2000 with DONE-CLAMPED, and any non-zero auto-on byte as yes.
A MOWER entry that moves an enabled record is REFUSED, and one that would leave two enabled records with an address in common BAD-VALUE,
with no other effect; any other is stored (R16, R108, R136, R137, R147, R151, R175–R177). That an answer comes after the notices its request
sets off is the model's choice (notes/assumptions/29.md). -/
def Obligations.ZoneGlobalSupplyAndMowerWritesAreStored : Prop :=
  ∀ (s : State) (r : Request), taken s r → s.agent.commit = none →
    (∀ (z : Fin 32) (e : ZoneConfig), e.wellFormed → writesOne r 10 z.val e.bytes →
      accepted .writeZone s r { s.tables with zones := s.tables.zones.set z e }) ∧
    (∀ (e : GlobalConfig) (dry silence : Nat), dry ≤ 65535 → silence ≤ 65535 →
      writesOne r 14 0 ({ e with dryOff := dry, silenceTimeout := silence }.bytes) →
      ∃ t, exec .writeGlobal s = .next t ∧ requestFrame s t ∧
        lastUp t (replyTo r (if 14400 < dry ∨ silence < 8 ∨ 2400 < silence then 1 else 0) 1 []) ∧
        t.tables = { s.tables with globals := { e with
          dryOff := if 14400 < dry then 14400 else dry
          silenceTimeout := if silence < 8 then 8 else if 2400 < silence then 2400 else silence } }) ∧
    (∀ (b : Branch) (n : Nat) (x : Byte), n ≤ 65535 → writesOne r 13 b.code (bytes16 n ++ [x]) →
      ∃ t, exec .writeSupply s = .next t ∧ requestFrame s t ∧ lastUp t (replyTo r (if 2000 < n then 1 else 0) 1 []) ∧
        t.tables = { s.tables with supply := s.tables.supply.set b ⟨min 2000 n, decide (x ≠ 0)⟩ }) ∧
    ∀ (m : Fin 4) (e : MowerConfig), e.wellFormed → writesOne r 12 m.val e.bytes →
      let old := s.tables.mowers.get m
      let mowers := s.tables.mowers.set m e
      let moves := old.enabled = true ∧ ¬(old.branch = e.branch ∧ old.node = e.node ∧ old.dock = e.dock)
      (addressesShared mowers → exec .writeMower s = .next (replied s (replyTo r 5 0 []))) ∧
      (¬addressesShared mowers → moves → exec .writeMower s = .next (replied s (replyTo r 6 0 []))) ∧
      (¬addressesShared mowers → ¬moves → accepted .writeMower s r { s.tables with mowers := mowers })

/-- SET-MODE: the mode becomes the one named, a manual level at or below the drive's max level becomes its manual level, one above it is not
taken and leaves OVER-MAX set, no other drive's manual level and no other table changes, and the answer is DONE. A drive set OFF at such a
level has OVER-MAX clear and wants 0; a PUMP without boost, hold-down and trip channel that is not TRIPPED, set to MANUAL, has it clear and
wants that level. A drive above 23 or a mode above 3 is BAD-VALUE with no other effect (R83, R85, R91, R94). That the answer comes after
OVER-MAX and the recomputation's notices is the model's choice (notes/assumptions/29.md). -/
def Obligations.SetModeSetsModeAndManualLevel : Prop :=
  ∀ (s : State) (r : Request) (mode level : Byte) (more : List Byte), taken s r → r.code = 3 → r.data = mode :: level :: more →
    (23 < r.first ∨ 3 < mode.toNat → exec .setMode s = .next (replied s (replyTo r 5 0 []))) ∧
    ∀ (d : Fin 24) (m : DriveMode), r.first = d.val → mode = m.byte →
      let top := (s.tables.limits.get d).maxLevel
      let shape := s.tables.shapes.get d
      ∃ t, exec .setMode s = .next t ∧ requestFrame s t ∧ lastUp t (replyTo r 0 0 []) ∧
        t.tables = { s.tables with shapes := s.tables.shapes.set d { shape with mode := m } } ∧
        (t.blocks.drive d).manual = (if level.toNat ≤ top then level.toNat else (s.blocks.drive d).manual) ∧
        (∀ e, e ≠ d → (t.blocks.drive e).manual = (s.blocks.drive e).manual) ∧
        (top < level.toNat → (t.blocks.drive d).overMax = true) ∧
        (m = .off → level.toNat ≤ top → (t.blocks.drive d).overMax = false ∧ (t.blocks.drive d).wanted = 0) ∧
        (m = .manual → level.toNat ≤ top → (s.tables.binds.get d).kind = .pump → shape.boostChannel = none → shape.holdChannel = none →
          shape.tripChannel = none → (s.blocks.drive d).tripped = false →
          (t.blocks.drive d).overMax = false ∧ (t.blocks.drive d).wanted = level.toNat)

/-- SHOW-START and SHOW-STOP: the show becomes RUNNING or STOPPED; its cues lose repeat-pending, postponement count and what was drawn, a
start putting each countdown at its phase and a stop keeping it; other cues, other shows, resolved occurrences, clash counts and every
other block are left alone; a show above 3 is BAD-VALUE (R122, R123). That a start keeps the clash counts is R122's, against R123's word
that they are replaced then (notes/assumptions/42.md). -/
def Obligations.ShowsStartAndStop : Prop :=
  ∀ (s : State) (r : Request), taken s r →
    let fresh := fun (sh : Fin 4) (start : Bool) (c : Fin 64) =>
      let x := s.blocks.cueRun c
      if (s.tables.cues.get c).inShow = sh then
        { x with
          countdown := if start then (s.tables.cues.get c).phase else x.countdown
          repeatPending := false, postponed := 0, drawn := false }
      else x
    let after := fun (sh : Fin 4) (start : Bool) =>
      { s with blocks := { s.blocks with cues :=
        { s.blocks.cues with runs := Table.build 64 (fresh sh start), running := s.blocks.cues.running.set sh start } } }
    (∀ sh : Fin 4, r.first = sh.val →
      (r.code = 4 → exec .showStart s = .next (replied (after sh true) (replyTo r 0 0 []))) ∧
      (r.code = 5 → exec .showStop s = .next (replied (after sh false) (replyTo r 0 0 [])))) ∧
    (3 < r.first → (r.code = 4 → exec .showStart s = .next (replied s (replyTo r 5 0 []))) ∧
      (r.code = 5 → exec .showStop s = .next (replied s (replyTo r 5 0 []))))

/-- CLEAR-LATCHED: each named channel's latched flags become its live flags, and nothing else of any block changes but the reply DONE; a
first channel above 15 is BAD-VALUE and a range past channel 15 BAD-INDEX, with no latched flag cleared (R72). -/
def Obligations.ClearLatchedClearsTheNamedChannels : Prop :=
  ∀ (s : State) (r : Request), taken s r → r.code = 6 →
    (15 < r.first → exec .clearLatched s = .next (replied s (replyTo r 5 0 []))) ∧
    (r.first ≤ 15 → 16 < r.first + r.count → exec .clearLatched s = .next (replied s (replyTo r 4 0 []))) ∧
    (r.first ≤ 15 → r.first + r.count ≤ 16 →
      ∃ channels, exec .clearLatched s = .next (replied { s with blocks := { s.blocks with channels := channels } } (replyTo r 0 0 [])) ∧
        ∀ c : Fin 16, channels.get c =
          if r.first ≤ c.val ∧ c.val < r.first + r.count then { s.blocks.channel c with latched := (s.blocks.channel c).live }
          else s.blocks.channel c)

/-- TRIP-DRIVE: the drive is TRIPPED and its wanted level 0, DRIVE-TRIPPED (d, −1, 0) joins the queue where it was clear and a place is free,
and the answer is DONE. RESET-TRIP: REFUSED, TRIPPED staying set, for a TRIPPED drive while the trip flag of the named trip channel is
live; otherwise DONE, and the drive is TRIPPED no longer where it names no trip channel or its flag is clear. A drive above 23 is
BAD-VALUE (R93). That the answer comes after DRIVE-TRIPPED and the recomputation's notices is the model's choice (notes/assumptions/29.md),
and so is that DRIVE-TRIPPED comes before those notices, on which one free place being enough rests (notes/assumptions/39.md). -/
def Obligations.TripAndResetTrip : Prop :=
  ∀ (s : State) (r : Request), taken s r →
    (23 < r.first → (r.code = 8 → exec .tripDrive s = .next (replied s (replyTo r 5 0 []))) ∧
      (r.code = 7 → exec .resetTrip s = .next (replied s (replyTo r 5 0 [])))) ∧
    ∀ d : Fin 24, r.first = d.val →
      let live := ∃ c, (s.tables.shapes.get d).tripChannel = some c ∧
        (match (s.tables.shapes.get d).tripSense with
          | .lowAlarm => (s.blocks.channel c).live.lowAlarm
          | .highAlarm => (s.blocks.channel c).live.highAlarm) = true
      (r.code = 8 → ∃ t, exec .tripDrive s = .next t ∧ requestFrame s t ∧ t.tables = s.tables ∧ lastUp t (replyTo r 0 0 []) ∧
        (t.blocks.drive d).tripped = true ∧ (t.blocks.drive d).wanted = 0 ∧
        ((s.blocks.drive d).tripped = false → s.blocks.up.hasRoom = true → noticeHeld t 3 d.val (-1) 0)) ∧
      (r.code = 7 → (s.blocks.drive d).tripped = true ∧ live →
        ∃ t, exec .resetTrip s = .next t ∧ requestFrame s t ∧ t.tables = s.tables ∧ lastUp t (replyTo r 6 0 []) ∧
          (t.blocks.drive d).tripped = true) ∧
      (r.code = 7 → ¬((s.blocks.drive d).tripped = true ∧ live) →
        ∃ t, exec .resetTrip s = .next t ∧ requestFrame s t ∧ t.tables = s.tables ∧ lastUp t (replyTo r 0 0 []) ∧
          (s.blocks.agenda = [] ∨ (s.tables.shapes.get d).tripChannel = none → ¬live → (t.blocks.drive d).tripped = false))

/-! ## The branch switches (chapter 6) -/

/-- RESTORE-BRANCH: a branch ON is answered DONE with no change, and one whose cool-down end is not passed TOO-SOON with no change; any other
becomes ON, with trip count 0 and auto-on armed no, BRANCH-RESTORED joins the queue where a place is free, the other branch's record is left
alone, and the answer is DONE. A branch above 1 is BAD-VALUE (R104, R107). That DONE comes after BRANCH-RESTORED and the notices that
follow it is the model's choice (notes/assumptions/29.md). -/
def Obligations.RestoreBranchSwitchesOn : Prop :=
  ∀ (s : State) (r : Request), taken s r → r.code = 9 →
    (1 < r.first → exec .restoreBranch s = .next (replied s (replyTo r 5 0 []))) ∧
    ∀ b : Branch, r.first = b.code →
      let x := s.blocks.slu.supply.get b
      (x.state = .on → exec .restoreBranch s = .next (replied s (replyTo r 0 0 []))) ∧
      (x.state ≠ .on → x.coolEnd.reached s.clock.round = false → exec .restoreBranch s = .next (replied s (replyTo r 7 0 []))) ∧
      (x.state ≠ .on → x.coolEnd.reached s.clock.round = true → s.blocks.agenda = [] →
        ∃ t, exec .restoreBranch s = .next t ∧ requestFrame s t ∧ t.tables = s.tables ∧ lastUp t (replyTo r 0 0 []) ∧
          t.blocks.slu.supply.get b = { x with state := .on, tripCount := 0, armed := false } ∧
          t.blocks.slu.supply.get (otherBranch b) = s.blocks.slu.supply.get (otherBranch b) ∧
          (s.blocks.up.hasRoom = true → noticeHeld t 9 b.code x.state.code
            (if s.blocks.slu.supplyLow then (s.tables.supply.get b).budget / 2 else (s.tables.supply.get b).budget : Nat)))

/-- AUTO_ON, the branch's share of the next round start: an armed branch whose cool-down end that round reaches is armed no longer, and becomes
ON where its auto-on field says so; any other branch is left as it stands (R106, R107). That the row is that share of the round start is the
model's choice (notes/assumptions/7.md). -/
def Obligations.AutoOnActsOnce : Prop :=
  ∀ (s : State) (b : Branch), settled s →
    let x := s.blocks.slu.supply.get b
    let falls := x.armed = true ∧ x.coolEnd.reached (s.clock.round + 1) = true
    (¬falls → exec (.autoOn b) s = .next s) ∧
    (falls → (s.tables.supply.get b).autoOn = false → exec (.autoOn b) s = .next (withSupply s b { x with armed := false })) ∧
    (falls → (s.tables.supply.get b).autoOn = true →
      ∃ t, exec (.autoOn b) s = .next t ∧ eventFrame s t ∧
        t.blocks.slu.supply.get b = { x with state := .on, tripCount := 0, armed := false } ∧
        t.blocks.slu.supply.get (otherBranch b) = s.blocks.slu.supply.get (otherBranch b))

/-- A row of the load table released: wanted and grant 0, no marks. -/
def releasedRow (r : LoadRow) : LoadRow := { r with wanted := 0, granted := 0, current := 0, shed := false, limited := false }

/-- BRANCH-OFF: an OFF branch is disarmed, a TRIPPED one becomes OFF, each with nothing else changed; an ON branch becomes OFF with trip count
0 and its cool-down end kept, every row of its load table is released, and the other branch's record is left alone. Each is answered DONE,
and a branch above 1 BAD-VALUE (R103, R105). That DONE comes after the notices that leaving ON sets off is the model's choice
(notes/assumptions/29.md). -/
def Obligations.BranchOffOpensTheSwitch : Prop :=
  ∀ (s : State) (r : Request), taken s r → r.code = 10 →
    (1 < r.first → exec .branchOff s = .next (replied s (replyTo r 5 0 []))) ∧
    ∀ b : Branch, r.first = b.code →
      let x := s.blocks.slu.supply.get b
      (x.state = .off → exec .branchOff s = .next (replied (withSupply s b { x with armed := false }) (replyTo r 0 0 []))) ∧
      (x.state = .tripped → exec .branchOff s = .next (replied (withSupply s b { x with state := .off }) (replyTo r 0 0 []))) ∧
      (x.state = .on → s.blocks.agenda = [] →
        ∃ t, exec .branchOff s = .next t ∧ requestFrame s t ∧ t.tables = s.tables ∧ lastUp t (replyTo r 0 0 []) ∧
          t.blocks.slu.supply.get b = { x with state := .off, tripCount := 0 } ∧
          t.blocks.slu.supply.get (otherBranch b) = s.blocks.slu.supply.get (otherBranch b) ∧
          ∀ i, s.tables.loadOn b i = true → t.blocks.slu.row i = releasedRow (s.blocks.slu.row i))

/-- BRANCH_TRIP: the sample that is the fourth in a row with HIGH-ALARM live on an ON branch trips it. The channel holds the sample, the branch
is TRIPPED with trip count 0 and its cool-down end 40 rounds on, every row of its load table is released, the other branch's record is left
alone, and BRANCH-TRIPPED joins the queue with the sample and the sum of grants before the release, where five places are free (the sample
may post four flag notices before it). Any other sample has no effect in this row (R64, R102, R103). That the row takes the round counter
as it finds it is the model's choice (notes/assumptions/7.md); so is that the Supply and Load Unit takes the sample's report before any other
block, on which the sum of grants and the five places rest (notes/assumptions/6.md). -/
def Obligations.FourthHighSampleTripsTheBranch : Prop :=
  ∀ (s : State) (b : Branch) (n : Nat), settled s → n ≤ 3000 →
    let c : Fin 16 := match b with
      | .branchA => 12
      | .branchB => 13
    let x := s.blocks.slu.supply.get b
    let trips := x.state = .on ∧ 3 ≤ x.tripCount ∧
      (evaluateFlags (s.tables.channels.get c) n (s.blocks.channel c).live).highAlarm = true
    (¬trips → exec (.branchTrip b n) s = .next s) ∧
    (trips → ∃ t, exec (.branchTrip b n) s = .next t ∧ eventFrame s t ∧ (t.blocks.channel c).value = n ∧
      t.blocks.slu.supply.get b = { x with state := .tripped, tripCount := 0, coolEnd := ⟨s.clock.round + 40, false⟩ } ∧
      t.blocks.slu.supply.get (otherBranch b) = s.blocks.slu.supply.get (otherBranch b) ∧
      (∀ i, s.tables.loadOn b i = true → t.blocks.slu.row i = releasedRow (s.blocks.slu.row i)) ∧
      (s.blocks.up.reports + 5 ≤ 28 → s.blocks.up.inUse + 5 ≤ 32 → noticeHeld t 8 b.code n (s.blocks.slu.grantSum s.tables b)))

/-- Granted currents keep to the effective budget: admitting a drive on a branch whose grants are within its budget leaves them within it
whatever level and class are handed, and reducing a branch brings any grants within its budget (R110, R112–R114, R116, R117). -/
def Obligations.GrantsKeepToTheBudget : Prop :=
  ∀ (u : SupplyUnit) (t : Tables) (b : Branch),
    (∀ (d : Fin 24) (wanted : Nat) (k : LoadClass), t.loadOn b (.drive d) = true → (∀ i, i ≠ .drive d → u.rowSound t i) →
      u.rowSound t (.drive d) → u.withinBudget t b → (u.admitDrive t b d wanted k).unit.withinBudget t b) ∧
    ((∀ i, u.rowSound t i) → (u.reduceTo t b).unit.withinBudget t b)

/-! ## Zones and mowers (chapters 8 and 9) -/

/-- HOLD: the gate is held, the answer is DONE and nothing else changes. RECALL: the gate is held and the answer is DONE; each mower that is
OUTBOUND, MOWING or HALTED is home owed and keeps its state, and an ASSIGNED one whose MOWER-GO is in no exchange is DOCKED with its retry
timer started and its zone free; the recall of an ASSIGNED mower whose MOWER-GO is in exchange marks it return on acceptance. RESUME: the
gate is held no longer, and the answer is DONE; a gate that was open changes nothing, and where no zone of the rotation can be assigned, each
mower that may be dispatched has its retry timer started and every other is left alone (R160, R162, R165, R169). What RECALL does is told of
a step that leaves no event waiting (notes/assumptions/4.md). That DONE comes after the notices is the model's choice
(notes/assumptions/29.md), and so is that a mower whose dispatch is withdrawn makes no charge request as it becomes DOCKED
(notes/assumptions/46.md); that the reasons of an earlier mark are kept beside RECALL is read from the manual by inference
(notes/assumptions/23.md). -/
def Obligations.GateRequestsHoldRecallResume : Prop :=
  (∀ (s : State) (r : Request), taken s r →
    let held := fun x : Bool => { s.blocks with mowers := { s.blocks.mowers with held := x } }
    (r.code = 11 → exec .hold s = .next (replied { s with blocks := held true } (replyTo r 0 0 []))) ∧
    (r.code = 12 → ∃ t, exec .recall s = .next t ∧ requestFrame s t ∧ t.tables = s.tables ∧ lastUp t (replyTo r 0 0 []) ∧
      t.blocks.mowers.held = true ∧
      (s.blocks.agenda = [] → t.blocks.agenda = [] → ∀ m : Fin 4,
        let x := s.blocks.mower m
        let y := t.blocks.mower m
        (x.state = .outbound ∨ x.state = .mowing ∨ x.state = .halted → y.homeOwed = true ∧ y.state = x.state) ∧
        (x.state = .assigned → x.chargeStanding = false →
          (∀ e n, (s.blocks.line (s.tables.mowers.get m).branch).exchange = some e → e.origin ≠ .entry n (.mower m .go)) →
          y.state = .docked ∧ y.assigned = none ∧ y.retry = 40 ∧
            ∀ z, x.assigned = some z → (t.blocks.zone z).occupiedBy m = false))) ∧
    (r.code = 13 →
      (s.blocks.mowers.held = false → s.blocks.agenda = [] → exec .resume s = .next (replied s (replyTo r 0 0 []))) ∧
      ∃ t, exec .resume s = .next t ∧ requestFrame s t ∧ t.tables = s.tables ∧ lastUp t (replyTo r 0 0 []) ∧
        t.blocks.mowers.held = false ∧
        (s.blocks.mowers.held = true → s.blocks.agenda = [] →
          (∀ (m : Fin 4) (i : Fin 64), i.val < s.tables.rotationLength →
            assignable s.tables m (s.tables.rotation.get i) s.blocks = false) →
          ∀ m : Fin 4,
            let k := s.tables.mowers.get m
            let x := s.blocks.mower m
            let mayGo := k.enabled = true ∧ (x.state = .docked ∨ x.state = .charging) ∧ k.dispatchBattery ≤ x.lastBattery ∧
              s.blocks.mowers.daylight = true ∧ s.blocks.mowers.island = false
            (mayGo → t.blocks.mower m = { x with retry := 40 }) ∧ (¬mayGo → t.blocks.mower m = x)))) ∧
  ∀ (t : Tables) (m : Fin 4) (g : Blocks) (e : Exchange) (n : Nat), (g.mower m).state = .assigned →
    (g.line (t.mowers.get m).branch).exchange = some e → e.origin = .entry n (.mower m .go) →
    (∃ q ∈ (g.line (t.mowers.get m).branch).queue, q.origin = .mower m .go) →
    (∀ q ∈ (g.line (t.mowers.get m).branch).queue, q.origin = .mower m .go → q.arrival = n) →
    recallMower t m g = (g.setMower m { g.mower m with returnReasons := (g.mower m).returnReasons ++ [.recall] }, [])

/-- ZONE-VETO: with 1 the zone's MANUAL reason is set and with 0 it is lifted, no other zone's MANUAL changes, and the answer is DONE, for a zone
of any kind and whether or not a commit is in flight; a zone above 31 or another data byte is BAD-VALUE. After start-up every MANUAL is
clear, whatever it was (R143). That DONE comes after the notices a MANUAL arrival sets off is the model's choice
(notes/assumptions/29.md). -/
def Obligations.ZoneVetoSetsAndLiftsManual : Prop :=
  (∀ (s : State) (r : Request), taken s r → r.code = 14 →
    (31 < r.first → exec .zoneVeto s = .next (replied s (replyTo r 5 0 []))) ∧
    ((∀ x more, r.data = x :: more → x ≠ 0 ∧ x ≠ 1) → exec .zoneVeto s = .next (replied s (replyTo r 5 0 []))) ∧
    ∀ (z : Fin 32) (set : Bool) (more : List Byte), r.first = z.val → r.data = yesByte set :: more →
      ∃ t, exec .zoneVeto s = .next t ∧ requestFrame s t ∧ t.tables = s.tables ∧ lastUp t (replyTo r 0 0 []) ∧
        (t.blocks.zone z).manual = set ∧ ∀ y, y ≠ z → (t.blocks.zone y).manual = (s.blocks.zone y).manual) ∧
  ∀ (s : State) (cause : StartCause) (samples : Samples),
    startUpBegins cause s → ∃ t, exec (.startUp cause samples) s = .next t ∧ ∀ z, (t.blocks.zone z).manual = false

/-- CLEAR-MOWER on a LOST mower: its assigned zone is no longer occupied by it, it becomes ABSENT without an assigned zone, and the answer is
DONE. A mower in any other state is answered REFUSED and a mower above 3 BAD-VALUE, with no other effect. Disabling a record withdraws its
commands that wait, but for the CHARGE off of a CHARGING mower, and leaves every other held one as one whose outcome is discarded (R170). Of a
mower with an assigned zone the change of state is told of a step that leaves no event waiting (notes/assumptions/4.md). That DONE comes after MOWER-STATE and the
jets' notices is the model's choice (notes/assumptions/29.md). -/
def Obligations.ClearMowerFreesALostMower : Prop :=
  (∀ (s : State) (r : Request), taken s r → r.code = 15 →
    (3 < r.first → exec .clearMower s = .next (replied s (replyTo r 5 0 []))) ∧
    ∀ m : Fin 4, r.first = m.val →
      let x := s.blocks.mower m
      (x.state ≠ .lost → exec .clearMower s = .next (replied s (replyTo r 6 0 []))) ∧
      (x.state = .lost → s.blocks.agenda = [] →
        ∃ t, exec .clearMower s = .next t ∧ requestFrame s t ∧ t.tables = s.tables ∧ lastUp t (replyTo r 0 0 []) ∧
          (∀ z, x.assigned = some z → (t.blocks.zone z).occupiedBy m = false) ∧
          (x.assigned = none ∨ t.blocks.agenda = [] → (t.blocks.mower m).state = .absent ∧ (t.blocks.mower m).assigned = none))) ∧
  ∀ (t : Tables) (m : Fin 4) (g : Blocks),
    let b := (t.mowers.get m).branch
    let p := disableMower t m g
    (∀ h ∈ (p.1.mower m).commands, h.former = true ∨ (h.id.command = .charge ∧ h.on = false)) ∧
    ((g.line b).queue.length ≤ 16 → (g.mower m).state ≠ .charging → ∀ e ∈ (p.1.line b).queue, ∀ c, e.origin = .mower m c →
      ∃ x, (g.line b).exchange = some x ∧ x.origin = .entry e.arrival e.origin)

/-- The state an answer of mode FAULT leaves a mower in. -/
def afterFaultAnswer (x : MowerState) : MowerState := if x = .absent ∨ x = .lost then .inbound else .halted

/-- A mower docked with nothing of its outing left (R155). -/
def dockedWhole (y : Mower) : Prop := y.state = .docked ∧ y.assigned = none ∧ y.stint = 0 ∧ y.homeOwed = false

/-- The frame of a mower command (R8, R9, R156), its tag put in as its exchange starts (R28). -/
def mowerFrame (dest : Byte) (payload : List Byte) : Frame := ⟨dest, 127, 2, 0, payload⟩

/-- The mower's branch takes one frame more. -/
def queueTakes (t : Tables) (m : Fin 4) (g : Blocks) : Prop :=
  g.supplyState (t.mowers.get m).branch = .on ∧ (g.line (t.mowers.get m).branch).queue.length < 16

/-- An answer takes a mower that is not DOCKED by it from its state by the mode and, OUTBOUND and CUTTING, by its zone (R155, R163). -/
def movedByMode (x y : Mower) (mode : MowerMode) (zone : Nat) : Prop :=
  (mode = .fault → y.state = afterFaultAnswer x.state) ∧
    (mode = .driving ∨ mode = .cutting →
      (x.state = .absent ∨ x.state = .lost ∨ x.state = .docked ∨ x.state = .charging ∨ x.state = .halted →
        y.state = .inbound ∧ y.homeOwed = true) ∧
      (x.state = .assigned ∨ x.state = .mowing ∨ x.state = .inbound → y.state = x.state)) ∧
    (x.state = .outbound → mode = .driving → y.state = .outbound) ∧
    (x.state = .outbound → mode = .cutting →
      (∀ z, x.assigned = some z → zone = z.val → y.state = .mowing ∧ y.stint = x.stintSent * 240) ∧
      ((∀ z, x.assigned = some z → zone ≠ z.val) → y.state = .outbound))

/-- A battery at or below the return threshold sends an OUTBOUND or MOWING mower home, once (R163, R165), and a FAULT answer leaves home owed as
it was (notes/assumptions/45.md). -/
def returnsOnBattery (t : Tables) (m : Fin 4) (mode : MowerMode) (battery : Nat) (g h : Blocks) : Prop :=
  let k := t.mowers.get m
  let x := g.mower m
  let y := h.mower m
  x.state = .outbound ∨ x.state = .mowing →
    (mode = .driving ∨ mode = .cutting →
      (k.returnBattery < battery → y.homeOwed = x.homeOwed) ∧
      (battery ≤ k.returnBattery → y.homeOwed = true ∧
        (x.homeOwed = false → ¬commandHeld x .home → queueTakes t m g →
          queuedAndHeld h m k.branch (mowerFrame k.node [3]) true .home false))) ∧
    (mode = .fault → y.homeOwed = x.homeOwed)

/-- What is told of a mower's position (R148, R166): one OUTBOUND or INBOUND after an answer of another mode than DOCKED has a position report
last; an INBOUND one seen in another zone than its assigned one has that zone released before it, and is reported once RELEASED is answered;
no other mower has one. -/
def positionTold (m : Fin 4) (mode : MowerMode) (zone : Nat) (x : Mower) (p : Acts) : Prop :=
  let y := p.1.mower m
  let leaves := fun z : Fin 32 => mode ≠ .docked ∧ y.state = .inbound ∧ x.assigned = some z ∧ zone ≤ 31 ∧ zone ≠ z.val
  let tells := mode ≠ .docked ∧ (y.state = .outbound ∨ y.state = .inbound) ∧ ∀ z, ¬leaves z
  (∀ z, leaves z → y.assigned = some z ∧ (p.1.zone z).occupiedBy m = false ∧ p.2.getLast? = some (.released m .reports)) ∧
    (tells → p.2.getLast? = some (.position m zone)) ∧ (¬tells → ∀ n, Task.position m n ∉ p.2)

/-- A good answer reaches the mower whose node it comes from where it is usable (R11, R53): at least four values, a mode of 0–3, a zone of 0–31 or
255, a battery of 0–100. -/
def handedToItsMower (t : Tables) (now : Round) (m : Fin 4) (g : Blocks) : Prop :=
  ∀ (b : Branch) (mark : AnswerMark) (f : Frame),
    let answers := fun n => (t.mowers.get n).enabled = true ∧ (t.mowers.get n).node = f.source
    answers m → (∀ n, n < m → ¬answers n) → ∀ (mode : MowerMode) (zone battery : Nat),
      (Task.mowerAnswer m mode zone battery ∈ (handle t now (.answer b mark f) g).2 ↔
        ∃ fault more, frameValues f = (mode.byte.toNat : Int) :: (zone : Int) :: (battery : Int) :: fault :: more ∧
          (zone ≤ 31 ∨ zone = 255) ∧ battery ≤ 100)

/-- A usable answer of a mower's node is handed to the Mower Dispatcher, which takes its mode, zone and battery as the last ones and moves the
mower by its state (R11, R53, R155): DOCKED ends the way home, at once where no zone is assigned, and otherwise once the zone has been
released and RELEASED answered (R146), without a change of state before; FAULT halts a mower that is not coming back from ABSENT or LOST,
DRIVING and CUTTING bring a mower out of the dock home and begin the stint of an OUTBOUND mower cutting its zone, and a mower brought home is
INBOUND and home owed. A low battery sends it home (R163), an INBOUND mower seen elsewhere has its zone released (R166), and one OUTBOUND or
INBOUND has its position reported (R148). That the state after the move counts for the battery is the model's choice
(notes/assumptions/45.md). -/
def Obligations.AnswersMoveAMowerByItsMode : Prop :=
  ∀ (t : Tables) (now : Round) (m : Fin 4) (g : Blocks),
    handedToItsMower t now m g ∧
    (∀ (mode : MowerMode) (zone battery : Nat),
      let x := g.mower m
      let x' := { x with lastMode := mode, lastZone := zone, lastBattery := battery }
      let p := handle t now (.mowerAnswer m mode zone battery) g
      let y := p.1.mower m
      (y.lastMode = mode ∧ y.lastZone = zone ∧ y.lastBattery = battery) ∧
      (mode = .docked → x.state ≠ .docked → x.state ≠ .charging → x.state ≠ .assigned →
        (x.assigned = none → dockedWhole y) ∧
        ∀ z, x.assigned = some z → y = x' ∧ (p.1.zone z).occupiedBy m = false ∧ p.2.getLast? = some (.released m .docks)) ∧
      (mode = .docked → x.state = .assigned → p = (g.setMower m x', [])) ∧
      (mode = .docked → x.state = .docked → y.state = .docked) ∧
      (mode = .docked → x.state = .charging → y.state = if battery < 100 then .charging else .docked) ∧
      movedByMode x y mode zone ∧ returnsOnBattery t m mode battery g p.1 ∧ positionTold m mode zone x p) ∧
    ((g.mower m).state ≠ .docked → (g.mower m).state ≠ .charging → dockedWhole ((handle t now (.released m .docks) g).1.mower m)) ∧
    let x := g.mower m
    handle t now (.released m .reports) g =
      (g.setMower m { x with assigned := none },
        if x.state = .outbound ∨ x.state = .inbound then [.position m x.lastZone] else [])

/-! ## The store, and the round start -/

/-- STORE: BUSY while a commit is in flight; else a snapshot of the tables is in flight, the image is invalid without its mark, and no reply is
placed yet. STORE_COMMIT_COMPLETE: once the eighth part reads back the image holds the snapshot, valid, and DONE is placed;
before it the row does nothing. STORE_COMMIT_FAIL, at any part: the image stays invalid and REFUSED is placed. Without a commit neither does
anything (R180, R181). RESTART: BUSY while a commit is in flight, else DONE is placed and the reply leads on to start-up (R183). What the two
commit rows stand for is the model's choice (notes/assumptions/19.md). -/
def Obligations.StoreCommitsAndRestart : Prop :=
  ∀ s : State, s.life = .running →
    (∀ r, s.agent.request = some r → s.agent.commit.isSome = true →
      (r.code = 16 → exec .store s = .next (replied s (replyTo r 2 0 []))) ∧
      (r.code = 19 → exec .restart s = .next (replied s (replyTo r 2 0 [])))) ∧
    (∀ r, s.agent.request = some r → s.agent.commit = none →
      (r.code = 16 → exec .store s = .next { s with agent := { s.agent with
        request := none, commit := some ⟨s.tables, 0, r⟩, imageValid := false, image := { s.agent.image with mark := false } } }) ∧
      (r.code = 19 → exec .restart s = .next { s with
        agent := { s.agent with request := none, restart := .replying }
        blocks := { s.blocks with up := { s.blocks.up with
          queue := s.blocks.up.queue ++ [⟨replyTo r 0 0 [], true⟩], claimed := s.blocks.up.claimed - 1 } } })) ∧
    (s.agent.commit = none → exec .storeCommitComplete s = .next s ∧ exec .storeCommitFail s = .next s) ∧
    ∀ c, s.agent.commit = some c →
      (c.parts < 7 → exec .storeCommitComplete s = .next s) ∧
      (7 ≤ c.parts → exec .storeCommitComplete s = .next { s with
        agent := { s.agent with commit := none, imageValid := true, image := Image.committed c.snapshot }
        blocks := withReply s.blocks (replyTo c.request 0 0 []) }) ∧
      exec .storeCommitFail s = .next { s with
        agent := { s.agent with commit := none, imageValid := false }
        blocks := withReply s.blocks (replyTo c.request 6 0 []) }

/-- ROUND_START: the round counter advances, wrapping, and the slot index is 0; in ISLAND the rounds spent there are counted to 32767; outside
it the silence timer falls by 1, and where it ends the part enters ISLAND; a commit in flight writes its next part, is complete with the
eighth, and fails on a part that reads back wrong, its reply placed; nothing else outside the blocks changes (R18, R180, R185, R186).
Channels 12–15 take their samples, held within range, a branch current at most 3 while the switch is open; each bound channel that is not
EMPTY counts a round to 65535 and is STALE at its stale limit, its value and flags kept (R58, R64, R65). This is told of a step that leaves
no event waiting (notes/assumptions/4.md). The operand of the part read back is the model's choice (notes/assumptions/19.md), and so is that
this row does every expiry of a round start beside the rows named for one (notes/assumptions/7.md). That the switch is judged as it stands
before the auto-on of this round start is the model's choice too (notes/assumptions/8.md). That a sample beyond its range is held at it, and
a current above 3 taken as 3 while the switch is open, is read from the manual by inference (notes/assumptions/18.md). -/
def Obligations.RoundStartAdvancesTheClock : Prop :=
  ∀ (s : State) (samples : Samples) (readsBack : Bool), s.life = .running →
    let p := s.trunk
    let ends := p.island = false ∧ p.silenceTimer ≤ 1
    ∃ t, exec (.roundStart samples readsBack) s = .next t ∧
      t.life = .running ∧ t.tables = s.tables ∧ t.pending = s.pending ∧ t.clock = ⟨s.clock.round + 1, 0⟩ ∧
      (p.island = true → t.trunk = { p with islandRounds := min 32767 (p.islandRounds + 1) }) ∧
      (ends → t.trunk = { p with island := true, silenceTimer := 0, islandRounds := 0 } ∧ t.blocks.mowers.island = true) ∧
      (p.island = false → 1 < p.silenceTimer → t.trunk = { p with silenceTimer := p.silenceTimer - 1 }) ∧
      (s.agent.commit = none → t.agent = s.agent) ∧
      (∀ c, s.agent.commit = some c →
        (readsBack = false → t.agent = { s.agent with commit := none, imageValid := false } ∧
          (⟨replyTo c.request 6 0 [], false⟩ : UpFrame) ∈ t.blocks.up.queue) ∧
        (readsBack = true → c.parts < 7 → t.agent = { s.agent with commit := some { c with parts := c.parts + 1 } }) ∧
        (readsBack = true → 7 ≤ c.parts →
          t.agent = { s.agent with commit := none, imageValid := true, image := Image.committed c.snapshot } ∧
          (⟨replyTo c.request 0 0 [], false⟩ : UpFrame) ∈ t.blocks.up.queue)) ∧
      (s.blocks.agenda = [] → t.blocks.agenda = [] →
        let current := fun (b : Branch) (n : Nat) => min (if s.blocks.supplyState b = .on then 3000 else 3) n
        let sampled := fun (c : Fin 16) (v : Int) =>
          (t.blocks.channel c).value = v ∧ (t.blocks.channel c).state = .fresh ∧ (t.blocks.channel c).rounds = 0
        sampled 12 (current .branchA samples.currentA : Nat) ∧ sampled 13 (current .branchB samples.currentB : Nat) ∧
          sampled 14 (min 400 samples.supply : Nat) ∧ sampled 15 (max (-40) (min 150 samples.temperature)) ∧
          ∀ c : Fin 16, c.val < 12 →
            let x := s.blocks.channel c
            let y := t.blocks.channel c
            (x.state = .empty → y = x) ∧
            (x.state ≠ .empty → y = { x with state := y.state, rounds := min 65535 (x.rounds + 1) } ∧ y.state ≠ .empty ∧
              (x.state = .stale ∨ (s.tables.channels.get c).staleLimit ≤ y.rounds → y.state = .stale)))

/-- CHANNEL_STALE, REFRESH_DUE, DRY_OFF_EXPIRY and TRANSIT_HOLD_EXPIRY, one item's share of the next round start (notes/assumptions/7.md): a
FRESH bound channel that comes to its stale limit is STALE, its value and flags held, no other channel changed; a bound, powered drive with a
grant above 0 and a known last sent level whose refresh falls due is UPDATE-PENDING, nothing else changed; the dry-off at its end leaves rain
DRY and lifts RAIN from every zone, nothing else changed; a HOLDING zone whose hold ends is IDLE, and the lamp drive that no other LIT or
HOLDING path names is in TRANSIT no longer. Otherwise none of them does anything (R65, R97, R140, R149, R150). -/
def Obligations.ChannelsRefreshesDryOffAndHoldsEnd : Prop :=
  ∀ s : State, settled s →
    let u := s.blocks.zones
    (∀ c : Fin 12,
      let i : Fin 16 := boundChannel c
      let x := s.blocks.channel i
      let rounds := min 65535 (x.rounds + 1)
      let falls := x.state = .fresh ∧ (s.tables.channels.get i).staleLimit ≤ rounds
      (¬falls → exec (.channelStale c) s = .next s) ∧
      (falls → ∃ t, exec (.channelStale c) s = .next t ∧ eventFrame s t ∧
        t.blocks.channels = s.blocks.channels.set i { x with state := .stale, rounds := rounds })) ∧
    (∀ d : Fin 24,
      let x := s.blocks.drive d
      let l := s.tables.limits.get d
      let rounds := min 255 (x.roundsSinceSend + 1)
      let falls := (s.tables.binds.get d).dest ≠ 0 ∧ x.unpowered = false ∧ x.sentKnown = true ∧ 0 < x.granted ∧ l.refresh ≠ 0 ∧
        l.refresh ≤ rounds
      (¬falls → exec (.refreshDue d) s = .next s) ∧
      (falls → exec (.refreshDue d) s = .next (withDrive s d { x with roundsSinceSend := rounds, pending := true }))) ∧
    (¬(u.rain = .drying ∧ u.dryOffRemaining ≤ 1) → exec .dryOffExpiry s = .next s) ∧
    (u.rain = .drying → u.dryOffRemaining ≤ 1 → exec .dryOffExpiry s = .next { s with blocks := { s.blocks with zones := { u with
      rain := .dry, dryOffRemaining := 0, zones := Table.build 32 fun z => { u.zones.get z with rain := false } } } }) ∧
    ∀ z : Fin 32,
      let x := s.blocks.zone z
      let falls := x.light = .holding ∧ x.holdRemaining ≤ 1
      (¬falls → exec (.transitHoldExpiry z) s = .next s) ∧
      (falls → ∃ t, exec (.transitHoldExpiry z) s = .next t ∧ eventFrame s t ∧
        (t.blocks.zone z).light = .idle ∧ (t.blocks.zone z).holdRemaining = 0 ∧
        ∀ d, (s.tables.zones.get z).lamp = some d →
          (∀ y, y ≠ z → s.tables.isPath y = true → (s.tables.zones.get y).lamp = some d → (s.blocks.zone y).light = .idle) →
          (t.blocks.drive d).transit = false)

/-- RETRY_TIMER_EXPIRY and STINT_EXPIRY, a mower's share of the next round start (notes/assumptions/7.md). A retry timer at 1 ends: a mower that
neither may be dispatched nor may ask for charge is left there; one that may be dispatched while no zone of the rotation can be assigned
posts NO-ZONE and starts the timer at 40. A MOWING mower's stint at 1 ends: it is home owed, and where its branch is ON with a place free
and no MOWER-HOME is owed or held, MOWER-HOME is queued URGENT. Otherwise neither does anything (R22, R157, R159, R160, R163, R165). -/
def Obligations.RetriesAndStintsExpire : Prop :=
  ∀ (s : State) (m : Fin 4), settled s →
    let x := s.blocks.mower m
    let k := s.tables.mowers.get m
    let u := s.blocks.mowers
    let mayGo := k.enabled = true ∧ (x.state = .docked ∨ x.state = .charging) ∧ k.dispatchBattery ≤ x.lastBattery ∧
      u.held = false ∧ u.daylight = true ∧ u.island = false
    let mayAsk := k.enabled = true ∧ x.state = .docked ∧ x.lastBattery < 100 ∧ x.chargeStanding = false
    let l := s.blocks.line k.branch
    (x.retry ≠ 1 → exec (.retryTimerExpiry m) s = .next s) ∧
    (x.retry = 1 → ¬mayGo → ¬mayAsk → exec (.retryTimerExpiry m) s = .next (withMower s m { x with retry := 0 })) ∧
    (x.retry = 1 → mayGo →
      (∀ i : Fin 64, i.val < s.tables.rotationLength → assignable s.tables m (s.tables.rotation.get i) s.blocks = false) →
      exec (.retryTimerExpiry m) s = .next { s with
        blocks := withNotice (withMower s m { x with retry := 40 }).blocks 19 m.val u.pointer s.tables.rotationLength }) ∧
    (¬(x.state = .mowing ∧ x.stint = 1) → exec (.stintExpiry m) s = .next s) ∧
    (x.state = .mowing → x.stint = 1 →
      ((x.homeOwed = true ∨ commandHeld x .home ∨ s.blocks.supplyState k.branch ≠ .on ∨ 16 ≤ l.queue.length) →
        exec (.stintExpiry m) s = .next (withMower s m { x with stint := 0, homeOwed := true })) ∧
      (x.homeOwed = false → ¬commandHeld x .home → s.blocks.supplyState k.branch = .on → l.queue.length < 16 →
        exec (.stintExpiry m) s = .next (withLine (withMower s m { x with
            stint := 0, homeOwed := true, commands := x.commands ++ [⟨⟨.home, k.branch, l.nextArrival⟩, false, false⟩] }) k.branch
          { l with
            queue := l.queue ++ [⟨⟨k.node, 127, 2, 0, [3]⟩, true, .mower m .home, l.nextArrival, false⟩]
            nextArrival := l.nextArrival + 1 })))

/-- ISLAND_BEGUN, the Trunk Port's share of the round start that ends the silence timer (notes/assumptions/7.md): the part is in ISLAND with no
rounds spent there, the Mower Dispatcher records it, and ISLAND-BEGUN is offered with the silence timeout in force, which the model takes to
be the one the timer was last loaded with (notes/assumptions/22.md); no mower is dispatched for it. Otherwise it does nothing (R154, R185,
R186). -/
def Obligations.SilenceBeginsIsland : Prop :=
  ∀ s : State, settled s →
    let ends := s.trunk.island = false ∧ s.trunk.silenceTimer ≤ 1
    (¬ends → exec .islandBegun s = .next s) ∧
    (ends → exec .islandBegun s = .next { s with
      trunk := { s.trunk with silenceTimer := 0, island := true, islandRounds := 0 }
      blocks := withNotice { s.blocks with mowers := { s.blocks.mowers with island := true } } 20 0
        s.trunk.timeoutInForce 0 })

/-! ## Slots (chapters 2 and 7) -/

/-- A slot of an ON branch that can be given to a frame: it is not past, nothing is on the line or in exchange, and the slot is neither an answer
slot judged, nor kept idle, nor used. -/
def slotOpen (s : State) (b : Branch) (slot : Fin 50) : Prop :=
  let l := s.blocks.line b
  settled s ∧ s.clock.slot ≤ slot ∧ s.blocks.supplyState b = .on ∧ l.exchange = none ∧ l.sending = none ∧ l.idleIn ≠ some slot ∧
    l.answeredIn ≠ some slot ∧ l.sentIn ≠ some slot

/-- No cue frame is declared for a slot. -/
def noCueAt (s : State) (b : Branch) (slot : Nat) : Prop := ∀ w ∈ s.blocks.cues.resolved, ¬(w.branch = b ∧ w.slot.val = slot)

/-- A drive whose update can be sent on a branch. -/
def updateWaits (s : State) (b : Branch) (d : Fin 24) : Prop :=
  (s.tables.binds.get d).dest ≠ 0 ∧ (s.tables.binds.get d).branch = b ∧ (s.blocks.drive d).pending = true

/-- The drive to be sent next: of the highest class waiting, the first counting upward from the last served. -/
def sentNext (s : State) (b : Branch) (d : Fin 24) : Prop :=
  let rank := fun e => (driveClass s.tables s.blocks e).rank
  let turn := fun (e : Fin 24) => (e - (s.blocks.line b).lastServed - 1).val
  updateWaits s b d ∧ ∀ e, updateWaits s b e → e ≠ d → rank e < rank d ∨ (rank e = rank d ∧ turn d < turn e)

/-- The part with one cue's run state replaced. -/
def withCueRun (s : State) (c : Fin 64) (x : CueRun) : State :=
  { s with blocks := { s.blocks with cues := { s.blocks.cues with runs := s.blocks.cues.runs.set c x } } }

/-- A cue's run state after its occurrence is over (R126, R131, R133). -/
def occurrenceOver (x : CueRun) : CueRun := { x with repeatPending := false, postponed := 0 }

/-- The part with no winner held. -/
def winnerTaken (s : State) : State := { s with blocks := { s.blocks with cues := { s.blocks.cues with resolved := [] } } }

/-- GENERAL_SLOT: a branch that is not ON sends nothing, and a winner held for the slot there is missed with cause 3; on one that is ON the
slot's winner is sent, a FRAME cue's frame as it was fixed, and for a LEVEL cue SET-LEVEL to its drive at the level granted as the slot starts;
where that drive is unbound or on another branch the occurrence completes and the slot goes on as one without a winner; without one the URGENT
entry at the head is, a COMMAND-ACK starting an exchange with the next slot where that slot is free; without an URGENT entry the pending drive
next in turn, at its granted level; without one the NORMAL COMMAND at the head; and with nothing to send nothing changes but the slot index
(R24–R28, R98, R128, R130, R131, R133). No row of a slot that is past has an effect: its slot comes again only after a round start, which is the
model's reading of the slot index (notes/assumptions/10.md). That the winner of a branch that is not ON is missed also where its LEVEL cue would
have had nothing to send is the model's choice (notes/assumptions/43.md). -/
def Obligations.GeneralSlotSendsTheFirstSource : Prop :=
  ∀ (s : State) (b : Branch) (o : Fin 40) (slot : Fin 50), slot.val = o.val →
    let l := s.blocks.line b
    ((slot < s.clock.slot → exec (.generalSlot b o) s = .next s) ∧
      (∀ pair : Fin 5, 40 + 2 * pair.val < s.clock.slot.val → exec (.pollSlot b pair) s = .next s) ∧
      (48 < s.clock.slot.val → exec .cueDraw s = .next s) ∧
      ((o.val + 48) % 50 < s.clock.slot.val → exec (.cueResolve b o) s = .next s)) ∧
    (settled s → s.clock.slot ≤ slot → s.blocks.supplyState b ≠ .on → noCueAt s b o.val →
      exec (.generalSlot b o) s = .next (inSlot s slot)) ∧
    (∀ w, settled s → s.clock.slot ≤ slot → s.blocks.supplyState b ≠ .on → s.blocks.cues.resolved = [w] → w.branch = b → w.slot = o →
      let x := s.blocks.cueRun w.cue
      let ended := withCueRun (winnerTaken (inSlot s slot)) w.cue (occurrenceOver x)
      exec (.generalSlot b o) s = .next { ended with blocks := withNotice ended.blocks 16 w.cue.val 3 (x.clashes : Nat) }) ∧
    (slotOpen s b slot →
      (∀ w f, s.blocks.cues.resolved = [w] → w.branch = b → w.slot = o → w.send = .frame f →
        exec (.generalSlot b o) s = .next (withLine (winnerTaken (inSlot s slot)) b
          { l with sending := some ⟨f, slot, .cue w, 0, false⟩, sentIn := some slot })) ∧
      (∀ w d, s.blocks.cues.resolved = [w] → w.branch = b → w.slot = o → w.send = .drive d →
        let k := s.tables.binds.get d
        let level := (s.blocks.drive d).granted
        (k.dest ≠ 0 → k.branch = b → exec (.generalSlot b o) s = .next (withLine (winnerTaken (inSlot s slot)) b
          { l with
            sending := some ⟨⟨k.dest, 127, 1, 0, [1, byteOf k.output, byteOf level]⟩, slot, .cue w, level, false⟩
            sentIn := some slot })) ∧
        (k.dest = 0 ∨ k.branch ≠ b → exec (.generalSlot b o) s =
          exec (.generalSlot b o) (withCueRun (winnerTaken s) w.cue (occurrenceOver (s.blocks.cueRun w.cue))))) ∧
      (noCueAt s b o.val →
        (∀ e rest, l.queue = e :: rest → e.urgent = true → e.frame.kind = 2 → o.val < 39 → noCueAt s b (o.val + 1) →
          let tag := if e.origin = .trunk then e.frame.tag else l.tag
          exec (.generalSlot b o) s = .next (withLine (inSlot s slot) b { l with
            tag := if e.origin = .trunk then l.tag else l.tag + 1
            exchange := some ⟨e.frame.dest, tag, .entry e.arrival e.origin, slot + 1⟩
            sending := some ⟨{ e.frame with tag := tag }, slot, .entry e.arrival, 0, false⟩
            sentIn := some slot })) ∧
        ((∀ e ∈ l.queue, e.urgent = false) →
          (∀ d, sentNext s b d →
            let k := s.tables.binds.get d
            let level := (s.blocks.drive d).granted
            exec (.generalSlot b o) s = .next (withLine (inSlot s slot) b { l with
              lastServed := d
              sending := some ⟨⟨k.dest, 127, 1, 0, [1, byteOf k.output, byteOf level]⟩, slot, .drive d, level, false⟩
              sentIn := some slot })) ∧
          ((∀ d, ¬updateWaits s b d) →
            (∀ e rest, l.queue = e :: rest → e.frame.kind = 1 →
              exec (.generalSlot b o) s = .next (withLine (inSlot s slot) b
                { l with sending := some ⟨e.frame, slot, .entry e.arrival, 0, false⟩, sentIn := some slot })) ∧
            (l.queue = [] → exec (.generalSlot b o) s = .next (inSlot s slot))))))

/-- A poll-table entry is due: it holds an address, and its next-due round has been reached. -/
def pollDue (s : State) (b : Branch) (i : Fin 32) : Prop :=
  ((s.tables.polls.get b).get i).node ≠ 0 ∧ ((s.blocks.line b).polls.get i).nextDue.reached s.clock.round = true

/-- POLL_SLOT: the oldest POLL of the poll-now list is sent as it was received, its payload with it (notes/assumptions/38.md); without one
the due entry most overdue, the lower index at a tie, from 127 with the branch's tag counter, which steps on, its next-due round moved on by
its interval; each opens an exchange with the next slot. With nothing due, and on a branch that is not ON, nothing changes but the slot index
(R28, R30–R32, R39). That the row brings the slot index to its slot, and does nothing once that slot is past, is the model's choice
(notes/assumptions/10.md). -/
def Obligations.PollSlotSendsTheOldestPoll : Prop :=
  ∀ (s : State) (b : Branch) (pair : Fin 5) (slot : Fin 50), slot.val = 40 + 2 * pair.val →
    let l := s.blocks.line b
    let late := fun i => (l.polls.get i).nextDue.overdue s.clock.round
    (settled s → s.clock.slot ≤ slot → s.blocks.supplyState b ≠ .on → exec (.pollSlot b pair) s = .next (inSlot s slot)) ∧
    (slotOpen s b slot →
      (∀ p rest, l.pollNow = p :: rest → exec (.pollSlot b pair) s = .next (withLine (inSlot s slot) b { l with
        pollNow := rest
        exchange := some ⟨p.dest, p.tag, .pollNow, slot + 1⟩
        sending := some ⟨⟨p.dest, p.source, 3, p.tag, p.payload⟩, slot, .poll, 0, false⟩
        sentIn := some slot })) ∧
      (l.pollNow = [] →
        (∀ i, pollDue s b i → (∀ j, pollDue s b j → late j < late i ∨ (late j = late i ∧ i ≤ j)) →
          let k := (s.tables.polls.get b).get i
          exec (.pollSlot b pair) s = .next (withLine (inSlot s slot) b { l with
            polls := l.polls.set i { l.polls.get i with nextDue := ⟨s.clock.round + BitVec.ofNat 32 k.interval, false⟩ }
            tag := l.tag + 1
            exchange := some ⟨k.node, l.tag, .pollTable, slot + 1⟩
            sending := some ⟨⟨k.node, 127, 3, l.tag, []⟩, slot, .poll, 0, false⟩
            sentIn := some slot })) ∧
        ((∀ i, ¬pollDue s b i) → exec (.pollSlot b pair) s = .next (inSlot s slot))))

/-- A cue is enabled, and its show is RUNNING. -/
def cueRuns (s : State) (c : Fin 64) : Prop :=
  (s.tables.cues.get c).enabled = true ∧ s.blocks.cues.running.get (s.tables.cues.get c).inShow = true

/-- CUE_DRAW: each enabled cue of a RUNNING show whose countdown is 0 has it set to period − 1 and is drawn; one whose countdown is above 0 has it
lowered by 1 and is drawn when it is repeat-pending; every other cue keeps its countdown and is not drawn. No other field of a run state and
nothing else but the slot index changes (R124). That an occurrence an earlier draw left unresolved is drawn no more is read from the manual
by inference (notes/assumptions/32.md). That the row brings the slot index to 48 from any slot before is the model's choice
(notes/assumptions/10.md). -/
def Obligations.CueDrawStepsTheCountdowns : Prop :=
  ∀ s : State, settled s → s.clock.slot.val ≤ 48 → ∃ runs, exec .cueDraw s =
      .next { inSlot s 48 with blocks := { s.blocks with cues := { s.blocks.cues with runs := runs } } } ∧
    ∀ c : Fin 64,
      let x := s.blocks.cueRun c
      (cueRuns s c → x.countdown = 0 → runs.get c = { x with countdown := (s.tables.cues.get c).period - 1, drawn := true }) ∧
      (cueRuns s c → 0 < x.countdown → runs.get c = { x with countdown := x.countdown - 1, drawn := x.repeatPending }) ∧
      (¬cueRuns s c → runs.get c = { x with drawn := false })

/-- A cue drawn for a slot offset of a branch. -/
def drawnFor (s : State) (b : Branch) (o : Fin 40) (c : Fin 64) : Prop :=
  (s.blocks.cueRun c).drawn = true ∧ (s.tables.cues.get c).slot = o ∧
    (match (s.tables.cues.get c).action with
      | .frame branch _ _ => branch = b
      | .level d _ => (s.tables.binds.get d).branch = b)

/-- A cue that claims its slot: a FRAME cue, or a LEVEL cue whose bound drive is in SHOW. -/
def claimsSlot (s : State) (c : Fin 64) : Prop :=
  match (s.tables.cues.get c).action with
  | .frame _ _ _ => True
  | .level d _ => (s.tables.binds.get d).dest ≠ 0 ∧ (s.tables.shapes.get d).mode = .inShow

/-- A cue stands above another: a higher priority, or the same and a lower number. -/
def above (s : State) (c e : Fin 64) : Prop :=
  (s.tables.cues.get e).priority < (s.tables.cues.get c).priority ∨
    ((s.tables.cues.get e).priority = (s.tables.cues.get c).priority ∧ c < e)

/-- CUE_RESOLVE on a branch that is ON: of the running drawn cues that claim the slot, the one above all others wins and keeps its counts until
its frame ends; every other one loses, its clash count 1 higher to 255 at most, postponed within its tolerance and missed beyond it; a
running drawn cue that does not claim completes; a withdrawn cue is only drawn no more. On a branch that is not ON each running drawn cue is
missed. Cues not drawn for the slot keep their run states (R125–R127). That a cue withdrawn after its draw does nothing more than that is
the model's reading (notes/assumptions/32.md). That the row brings the slot index to the slot two before its own, from any slot before that,
is the model's choice (notes/assumptions/10.md). -/
def Obligations.CueResolutionSettlesEachCue : Prop :=
  ∀ (s : State) (b : Branch) (o : Fin 40), settled s → s.clock.slot.val ≤ (o.val + 48) % 50 →
    ∃ t, exec (.cueResolve b o) s = .next t ∧ eventFrame s t ∧ t.clock.slot.val = (o.val + 48) % 50 ∧
      ∀ c : Fin 64,
        let x := s.blocks.cueRun c
        let y := t.blocks.cueRun c
        let rival := fun e => e ≠ c ∧ drawnFor s b o e ∧ cueRuns s e ∧ claimsSlot s e
        (¬drawnFor s b o c → y = x) ∧
        (drawnFor s b o c → ¬cueRuns s c → y = { x with drawn := false }) ∧
        (drawnFor s b o c → cueRuns s c → s.blocks.supplyState b ≠ .on →
          y = { x with drawn := false, repeatPending := false, postponed := 0 }) ∧
        (drawnFor s b o c → cueRuns s c → s.blocks.supplyState b = .on →
          (¬claimsSlot s c → y = { x with drawn := false, repeatPending := false, postponed := 0 }) ∧
          (claimsSlot s c → (∀ e, rival e → above s c e) → y = { x with drawn := false } ∧
            ∃ w ∈ t.blocks.cues.resolved, w.cue = c ∧ w.branch = b ∧ w.slot = o ∧ w.rewritten = false) ∧
          (claimsSlot s c → (∃ e, rival e ∧ above s e c) →
            y = if x.postponed + 1 ≤ (s.tables.cues.get c).tolerance then
                { x with drawn := false, clashes := min 255 (x.clashes + 1), postponed := x.postponed + 1, repeatPending := true }
              else { x with drawn := false, clashes := min 255 (x.clashes + 1), postponed := 0, repeatPending := false }))

/-- A drive's record after its level was sent and came back clean at the level granted (R98). -/
def sentAt (x : Drive) (level : Nat) : Drive := { x with lastSent := level, sentKnown := true, roundsSinceSend := 0, pending := false }

/-- ECHO_JUDGED: with nothing being sent it does nothing. After a clean echo a COMMAND's entry leaves the queue, a COMMAND-ACK and a POLL wait
for their answer, a drive update makes its level the last sent one, not pending where that is the level granted, and a cue's occurrence is over,
unless its entry was written since. After any other echo the collision is counted and COLLISION posted; an entry goes back to the head of the
queue once, and leaves at its second collision, which a mower command's owner takes as FAILED; an exchange it had started ends and the next slot
is kept idle, a command from before its record was disabled having no other effect; a cue has lost a clash, postponed within its tolerance and
missed with cause 4 beyond it; a drive update changes nothing of its drive, and a POLL keeps its exchange (R27–R29, R35, R36, R98, R131, R132,
R161). That an entry goes back to the head of the whole queue, and not of its class, is read from the manual by inference
(notes/assumptions/14.md); that an echo in which every byte sent came back equal and more bytes were heard is a collision, a case R35 does not
name, is the model's choice (notes/assumptions/44.md), and so is that a mower made DOCKED by FAILED makes no charge request on that entry
(notes/assumptions/46.md). -/
def Obligations.EchoesAreJudged : Prop :=
  ∀ (s : State) (b : Branch) (echo : List RxByte), settled s →
    let l := s.blocks.line b
    (l.sending = none → exec (.echoJudged b echo) s = .next s) ∧
    ∀ x, l.sending = some x →
      let others := fun n => l.queue.filter fun e => decide (e.arrival ≠ n)
      let clear := withLine s b { l with sending := none }
      let struck := { l with sending := none, collisions := min 65535 (l.collisions + 1) }
      let noted := fun l' => { s with blocks := withNotice (withLine s b l').blocks 12 b.code x.slot.val x.frame.kind.toNat }
      (echo = x.frame.onWire →
        (∀ n, x.source = .entry n →
          (l.exchange = none → exec (.echoJudged b echo) s = .next (withLine s b { l with sending := none, queue := others n })) ∧
          (l.exchange ≠ none → exec (.echoJudged b echo) s = .next clear)) ∧
        (x.source = .poll → exec (.echoJudged b echo) s = .next clear) ∧
        (∀ d, x.source = .drive d →
          (x.rebound = true → exec (.echoJudged b echo) s = .next clear) ∧
          (x.rebound = false → x.level = (s.blocks.drive d).granted →
            exec (.echoJudged b echo) s = .next (withDrive clear d (sentAt (s.blocks.drive d) x.level)))) ∧
        ∀ w, x.source = .cue w →
          let ended := if w.rewritten then clear else
            withCueRun clear w.cue { s.blocks.cueRun w.cue with repeatPending := false, postponed := 0 }
          (∀ f, w.send = .frame f → exec (.echoJudged b echo) s = .next ended) ∧
          ∀ d, w.send = .drive d →
            (x.rebound = true → exec (.echoJudged b echo) s = .next ended) ∧
            (x.rebound = false → x.level = (s.blocks.drive d).granted →
              exec (.echoJudged b echo) s = .next (withDrive ended d (sentAt (s.blocks.drive d) x.level)))) ∧
      (echo ≠ x.frame.onWire →
        (∀ d, x.source = .drive d → exec (.echoJudged b echo) s = .next (noted struck)) ∧
        (x.source = .poll → exec (.echoJudged b echo) s = .next (noted struck)) ∧
        (∀ w, x.source = .cue w →
          let r := s.blocks.cueRun w.cue
          let clashes := min 255 (r.clashes + 1)
          let u := withCueRun (noted struck) w.cue
          if r.postponed + 1 ≤ (s.tables.cues.get w.cue).tolerance then
            let y := u { r with clashes := clashes, postponed := r.postponed + 1, repeatPending := true }
            exec (.echoJudged b echo) s = .next
              { y with blocks := withNotice y.blocks 15 w.cue.val ((r.postponed + 1 : Nat) : Int) (clashes : Nat) }
          else
            let y := u { r with clashes := clashes, postponed := 0, repeatPending := false }
            exec (.echoJudged b echo) s = .next { y with blocks := withNotice y.blocks 16 w.cue.val 4 (clashes : Nat) }) ∧
        ∀ e, l.queue.find? (fun y => decide (y.arrival = e.arrival)) = some e → x.source = .entry e.arrival →
          let cut := if l.exchange.isSome then { struck with exchange := none, idleIn := some (x.slot + 1) } else struck
          let dropped := noted { cut with queue := others e.arrival }
          (e.collided = false →
            exec (.echoJudged b echo) s = .next (noted { cut with queue := { e with collided := true } :: others e.arrival })) ∧
          (e.collided = true →
            (e.origin = .trunk → exec (.echoJudged b echo) s = .next dropped) ∧
            ∀ m : Fin 4,
              let k := s.tables.mowers.get m
              let y := s.blocks.mower m
              let id := fun c : MowerCommand => (⟨c, b, e.arrival⟩ : CommandId)
              let charges := k.enabled = true ∧ y.state = .charging ∧
                ∃ h ∈ y.commands, h.id = id .charge ∧ h.former = false ∧ h.on = true
              (e.origin = .mower m .home → exec (.echoJudged b echo) s = .next (withMower dropped m (unmarked y (id .home)))) ∧
              (e.origin = .mower m .charge → ¬charges →
                exec (.echoJudged b echo) s = .next (withMower dropped m (unmarked y (id .charge)))) ∧
              (e.origin = .mower m .charge → charges →
                ∃ t, exec (.echoJudged b echo) s = .next t ∧ eventFrame s t ∧
                  (t.blocks.mower m).state = .docked ∧ (t.blocks.mower m).retry = 40) ∧
              (e.origin = .mower m .go → ¬ownCommand y (id .go) →
                exec (.echoJudged b echo) s = .next (withMower dropped m (unmarked y (id .go)))) ∧
              (e.origin = .mower m .go → ownCommand y (id .go) → ¬(k.enabled = true ∧ y.state = .assigned) →
                exec (.echoJudged b echo) s = .next (withMower dropped m { unmarked y (id .go) with returnReasons := [] })) ∧
              (e.origin = .mower m .go → ownCommand y (id .go) → k.enabled = true → y.state = .assigned → y.chargeStanding = false →
                ∃ t, exec (.echoJudged b echo) s = .next t ∧ eventFrame s t ∧
                  (∀ h ∈ (t.blocks.mower m).commands, h.id ≠ id .go) ∧
                  (t.blocks.agenda = [] → (t.blocks.mower m).state = .docked ∧ (t.blocks.mower m).assigned = none ∧
                    (t.blocks.mower m).retry = 40))))

/-- A slot in which the receiver finds a fault first: bytes before a start mark, a length above 24, a frame that the slot's end cuts, or one
with a stop bit missing or a check that differs (R3, R33). -/
def hearsFault (heard : List RxByte) : Prop :=
  (∃ z rest, heard = z :: rest ∧ z.value ≠ 0xC3) ∨
    ∃ mark got, heard = mark :: got ∧ mark.value = 0xC3 ∧
      (got = [] ∨ ∃ n rest, got = n :: rest ∧
        (24 < n.value.toNat ∨ (n.value.toNat ≤ 24 ∧ (rest.length < n.value.toNat + 5 ∨
          ∃ whole more, rest = whole ++ more ∧ whole.length = n.value.toNat + 5 ∧
            let values := (n :: whole).map RxByte.value
            let check := crc16 (values.take (n.value.toNat + 4))
            ((∃ z ∈ n :: whole, z.stop = false) ∨ values.drop (n.value.toNat + 4) ≠ [hiByte check, loByte check])))))

/-- ANSWER_SLOT_JUDGED: without an exchange whose frame has ended it does nothing. Otherwise a well-formed ANSWER from the node asked with the
tag sent makes each record of the node PRESENT with no misses, and its values reach the channels bound to them; anything else is a miss, the
third in a row making the record ABSENT, and a fault or a malformed ANSWER a garble as well; and then the exchange ends, a trunk entry
unanswered by a node not polled only leaving the queue. UNSOLICITED_FRAME: what is heard in a slot that is not one of the part's own, an
answer slot or kept idle is counted, and nothing else changes but the slot index, which only goes forward (R18, R29, R33, R34, R37, R62,
R63). The end of the exchange and the channels are told of a step that leaves no event waiting (notes/assumptions/4.md). That a malformed
ANSWER is a garble whatever its source and tag is read from the manual by inference (notes/assumptions/13.md); that the answer slot brings
the slot index to itself is the model's choice (notes/assumptions/10.md). -/
def Obligations.AnswerSlotsAreJudged : Prop :=
  ∀ (s : State) (b : Branch), settled s →
    let l := s.blocks.line b
    (∀ heard, l.exchange = none ∨ l.sending.isSome = true → exec (.answerSlotJudged b heard) s = .next s) ∧
    (∀ x, l.exchange = some x → l.sending = none →
      let now := if s.clock.slot.val + 1 = x.answerSlot.val then inSlot s x.answerSlot else s
      (∀ heard, ∃ t, exec (.answerSlotJudged b heard) s = .next t ∧ eventFrame s t ∧ t.clock = now.clock ∧
        (t.blocks.line b).answeredIn = some x.answerSlot ∧ (t.blocks.agenda = [] → (t.blocks.line b).exchange = none) ∧
        (∀ f : Frame, f.wellFormed → heard = f.onWire → f.kind = 4 → f.source = x.dest → f.tag = x.tag → f.payload.length % 2 = 1 →
          t.blocks.agenda = [] → ∀ c v, bindsTo s.tables b f c v →
            (t.blocks.channel c).value = v ∧ (t.blocks.channel c).state = .fresh ∧ (t.blocks.channel c).rounds = 0) ∧
        ∀ i : Fin 32,
          let old := l.polls.get i
          let new := (t.blocks.line b).polls.get i
          let asked := ((s.tables.polls.get b).get i).node = x.dest
          let missed := { old with
            misses := min 255 (old.misses + 1), presence := if old.misses < 2 then old.presence else Presence.absent }
          let garbled := { missed with garbles := min 65535 (old.garbles + 1) }
          (¬asked → new = old) ∧
          (asked → ∀ f : Frame, f.wellFormed → heard = f.onWire →
            (f.kind = 4 ∧ f.source = x.dest ∧ f.tag = x.tag ∧ f.payload.length % 2 = 1 →
              new = { old with presence := .present, misses := 0 }) ∧
            (f.kind ≠ 4 → new = missed) ∧
            (f.kind = 4 ∧ f.payload.length % 2 = 1 ∧ ¬(f.source = x.dest ∧ f.tag = x.tag) → new = missed) ∧
            (f.kind = 4 ∧ f.payload.length % 2 = 0 → new = garbled)) ∧
          (asked → heard = [] → new = missed) ∧ (asked → hearsFault heard → new = garbled)) ∧
      (∀ n, x.origin = .entry n .trunk → (∀ i, ((s.tables.polls.get b).get i).node ≠ x.dest) →
        exec (.answerSlotJudged b []) s = .next (withLine now b { l with
          exchange := none, answeredIn := some x.answerSlot, queue := l.queue.filter fun e => decide (e.arrival ≠ n) }))) ∧
    ∀ (slot : Fin 50) (heard : List RxByte), heard ≠ [] →
      let now := if s.clock.slot ≤ slot then inSlot s slot else s
      let own := l.sentIn = some slot ∨ l.answeredIn = some slot ∨ l.idleIn = some slot ∨
        ∃ x, l.exchange = some x ∧ x.answerSlot = slot
      (own → exec (.unsolicitedFrame b slot heard) s = .next now) ∧
      (¬own → exec (.unsolicitedFrame b slot heard) s =
        .next (withLine now b { l with unsolicited := min 65535 (l.unsolicited + 1) }))

/-! ## Reset, power and start-up (R188) -/

/-- What a part that has stopped holds: no frame on the trunk or a branch, both switches open, every row of the load tables released (R110), no
commit in flight, the image valid only where none was cut, and the tables, the image and the waiting commands as they were. -/
def stopped (s t : State) : Prop :=
  t.tables = s.tables ∧ t.pending = s.pending ∧ t.trunk.transmitting = none ∧ t.agent.commit = none ∧ t.agent.image = s.agent.image ∧
    (t.agent.imageValid = true ↔ s.agent.imageValid = true ∧ s.agent.commit = none) ∧
    (∀ b, (t.blocks.line b).sending = none ∧ t.blocks.supplyState b = .off) ∧
    ∀ i, t.blocks.slu.row i = releasedRow (s.blocks.slu.row i)

/-- RESET_LINE_ASSERT holds a running part, and POWER_LOSS takes any part's supply away and leaves the line as it stands: each stops it. START_UP
begins where the supply rises with the line released, where the line is released with supply there, and by RESTART once its reply has been
sent by a running part. It leaves the part running at the start of round 0, with the tables of a valid image or the empty defaults, the
Trunk Port and the agent as after start-up, both branches OFF with their cool-down ending at round 40, and STARTED first in the upstream
queue. A supply that rises under an asserted line leaves the part held, and a line released without supply is asserted no more. Which
commands a stopped part answers, and that waiting commands outlive a stop, is the model's choice (notes/assumptions/9.md). -/
def Obligations.StopsAndStartUps : Prop :=
  ∀ s : State,
    (s.life = .running → ∃ t, exec .resetLineAssert s = .next t ∧ t.life = .held ∧ stopped s t) ∧
    (s.life = .held → exec .resetLineAssert s = .next s) ∧
    (∀ line, s.life = .unpowered line → exec .resetLineAssert s = .next { s with life := .unpowered true }) ∧
    (∃ t, exec .powerLoss s = .next t ∧ stopped s t ∧ (s.life = .running → t.life = .unpowered false) ∧
      (s.life = .held → t.life = .unpowered true) ∧ ∀ line, s.life = .unpowered line → t.life = .unpowered line) ∧
    ∀ (cause : StartCause) (samples : Samples),
      let tables := if s.agent.image.isValid then s.agent.image.contents else Tables.empty
      (cause = .powerUp → s.life = .unpowered true → exec (.startUp cause samples) s = .next { s with life := .held }) ∧
      (cause = .resetLine → s.life = .unpowered true → exec (.startUp cause samples) s = .next { s with life := .unpowered false }) ∧
      (¬startUpBegins cause s → cause = .restart ∨ s.life ≠ .unpowered true → exec (.startUp cause samples) s = .next s) ∧
      (startUpBegins cause s → ∃ t, exec (.startUp cause samples) s = .next t ∧ t.life = .running ∧ t.tables = tables ∧
        t.clock = ⟨0, 0⟩ ∧ t.pending = s.pending ∧ t.trunk = ⟨.hunting false, [], 0, 0, 0, tables.globals.silenceTimeout,
          tables.globals.silenceTimeout, false, 0, none⟩ ∧
        t.agent = ⟨none, none, s.agent.image, s.agent.image.isValid, .none⟩ ∧
        (∀ b, t.blocks.slu.supply.get b = ⟨.off, ⟨40, false⟩, true, 0⟩) ∧
        ∃ rest, t.blocks.up.queue = ⟨startedNotice s.agent.image.isValid cause, false⟩ :: rest)

/-! ## Measurement and levels (chapters 4 and 5) -/

/-- Each live flag at a new value is judged on its own from the state it stood in: a clear high flag sets above its threshold, a set one clears
at or below the threshold less the hysteresis; a clear low flag sets below its threshold, a set one clears at or above the threshold plus
the hysteresis; otherwise the flag keeps its state, in sums taken in full. A new value takes these flags; a channel going STALE keeps its
flags, and one emptied has none (R68). -/
def Obligations.LiveFlagsFollowTheHysteresis : Prop :=
  (∀ (k : ChannelConfig) (v : Int) (was : Flags),
    let is := evaluateFlags k v was
    let h : Int := k.hysteresis
    (is.highAlarm = true ↔ (was.highAlarm = false ∧ k.highAlarm < v) ∨ (was.highAlarm = true ∧ ¬v ≤ k.highAlarm - h)) ∧
    (is.highWarn = true ↔ (was.highWarn = false ∧ k.highWarn < v) ∨ (was.highWarn = true ∧ ¬v ≤ k.highWarn - h)) ∧
    (is.lowWarn = true ↔ (was.lowWarn = false ∧ v < k.lowWarn) ∨ (was.lowWarn = true ∧ ¬k.lowWarn + h ≤ v)) ∧
    (is.lowAlarm = true ↔ (was.lowAlarm = false ∧ v < k.lowAlarm) ∨ (was.lowAlarm = true ∧ ¬k.lowAlarm + h ≤ v))) ∧
  ∀ (t : Tables) (c : Fin 16) (v : Int) (g : Blocks),
    ((takeValue t c v g).1.channel c).live = evaluateFlags (t.channels.get c) v (g.channel c).live ∧
    ((makeStale c g).1.channel c).live = (g.channel c).live ∧ ((emptyChannel c g).1.channel c).live = ⟨false, false, false, false⟩

/-- The level of a curve (R86): a drive in AUTO with a FRESH index channel has its curve's level at the channel's value as its base level; that
is point 0 below the base, point 31 from 31 steps above it on, and between them a plus (b − a) × f ÷ 256 truncated toward zero, which lies
between a and b. -/
def Obligations.CurveLevelsFollowTheSegments : Prop :=
  (∀ (t : Tables) (g : Blocks) (d : Fin 24) (seen : Option ChannelReport),
    let k := t.shapes.get d
    k.mode = .auto → (g.view seen k.indexChannel).state = .fresh →
      baseLevel t g d seen = curveLevel (t.curves.get k.curve) k.base k.step (g.view seen k.indexChannel).value) ∧
  ∀ (points : Table Nat 32) (base v : Int) (step : Nat), 0 < step →
    let d := v - base
    (d < 0 → curveLevel points base step v = points.get 0) ∧
    (31 * (step : Int) ≤ d → curveLevel points base step v = points.get 31) ∧
    ∀ i : Fin 31, (i.val : Int) * step ≤ d → d < (i.val + 1 : Int) * step →
      let a := points.get i.castSucc
      let b := points.get i.succ
      let f := (d - i.val * step) * 256 / step
      (curveLevel points base step v : Int) = a + (((b : Int) - a) * f).tdiv 256 ∧
        min a b ≤ curveLevel points base step v ∧ curveLevel points base step v ≤ max a b

/-- What a recomputation sees of a channel: the contents of the report that caused it for the report's channel, and the record as it stands
for any other (R82). -/
def seenAs (g : Blocks) (seen : Option ChannelReport) (c : Fin 16) : Int × ChannelState × Flags :=
  match seen with
  | some r => if r.channel = c then (r.value, r.state, r.live) else ((g.channel c).value, (g.channel c).state, (g.channel c).live)
  | none => ((g.channel c).value, (g.channel c).state, (g.channel c).live)

/-- Stages 2 and 3: the boost, to 255 at most, and the hold-down (R87, R88). -/
def boostedAndHeld (k : DriveShape) (view : Fin 16 → Int × ChannelState × Flags) (base : Nat) : Nat :=
  let boosted := match k.boostChannel with
    | some c => if (view c).2.2.highWarn then min 255 (base + k.boostAmount) else base
    | none => base
  match k.holdChannel with
  | some c => if (view c).2.2.lowWarn = true ∨ (view c).2.1 ≠ .fresh then min boosted k.holdLevel else boosted
  | none => boosted

/-- The base level of a drive (R85), the level of its curve where it follows one (R86). -/
def startingLevel (t : Tables) (g : Blocks) (d : Fin 24) (view : Fin 16 → Int × ChannelState × Flags) : Nat :=
  let k := t.shapes.get d
  match k.mode, (view k.indexChannel).2.1 with
  | .off, _ => 0
  | .manual, _ => (g.drive d).manual
  | .inShow, _ => (g.drive d).showLevel
  | .auto, .empty => (t.limits.get d).fallbackLevel
  | .auto, .stale => (g.drive d).base
  | .auto, .fresh => curveLevel (t.curves.get k.curve) k.base k.step (view k.indexChannel).1

/-- The class of a drive by the first line that applies (R95). -/
def classByLine (kind : DriveKind) (mode : DriveMode) (transit : Bool) : LoadClass :=
  if kind = .lamp ∧ transit = true then .safety
  else if mode = .inShow then .showLoad
  else if kind = .jet then .showLoad
  else if kind = .pump then .water
  else .ambient

/-- One recomputation of a drive (R82, R85–R92, R94–R97, R112): its levels and flags by stages 1 to 7, the notices of flags newly set, the
hand-over and what it grants, UPDATE-PENDING, and what the Zone Unit is told. -/
def recomputed (t : Tables) (d : Fin 24) (seen : Option ChannelReport) (g : Blocks) : Prop :=
  let k := t.shapes.get d
  let l := t.limits.get d
  let bind := t.binds.get d
  let x := g.drive d
  let p := recompute t d seen g
  let y := p.1.drive d
  let view := seenAs g seen
  let base := startingLevel t g d view
  let three := boostedAndHeld k view base
  let four := if bind.kind = .jet ∧ ∃ z : Fin 32, l.spraySet.getLsbD z.val = true ∧ (g.zone z).occupants ≠ 0 then min three l.sprayCap else three
  let five := if bind.kind = .lamp ∧ x.transit = true then max four l.transitLevel else four
  let six := min five l.maxLevel
  let trips := match k.tripChannel with
    | some c => (match k.tripSense with
      | .lowAlarm => (view c).2.2.lowAlarm
      | .highAlarm => (view c).2.2.highAlarm)
    | none => false
  let capped := match k.tripChannel with
    | some c => if (view c).2.1 = .fresh then six else min six l.fallbackLevel
    | none => six
  let sprays := k.mode ≠ .off ∧ four < three
  let tops := k.mode ≠ .off ∧ l.maxLevel < five
  let room := g.up.reports + 3 ≤ 28 ∧ g.up.inUse + 3 ≤ 32
  let posted := fun (code : Nat) (first second : Int) => (⟨noticeFrame code d.val first second, false⟩ : UpFrame) ∈ p.1.up.queue
  let cls := classByLine bind.kind k.mode x.transit
  let row := g.slu.drives.get d
  let row' := p.1.slu.drives.get d
  let powered := bind.dest ≠ 0 ∧ x.unpowered = false
  let due := powered ∧ g.supplyState bind.branch = .on ∧ (x.handDue = true ∨ row.wanted ≠ y.wanted ∨ row.cls ≠ cls)
  let isOver := decide (bind.kind = .jet) && decide (l.sprayCap < y.granted)
  y.base = base ∧ y.wanted = (if k.mode = .off ∨ x.tripped = true ∨ trips = true then 0 else capped) ∧
    (y.sprayCapped = true ↔ sprays) ∧ (y.overMax = true ↔ x.overMax = true ∨ tops) ∧ y.tripped = (x.tripped || trips) ∧
    y.manual = x.manual ∧ y.showLevel = x.showLevel ∧ y.transit = x.transit ∧ y.unpowered = x.unpowered ∧
    (room → sprays → x.sprayCapped = false → posted 6 three l.sprayCap) ∧
    (room → tops → x.overMax = false → posted 4 five l.maxLevel) ∧
    (room → trips = true → x.tripped = false → ∀ c ∈ k.tripChannel, posted 3 c.val (view c).1) ∧
    (due → row'.wanted = y.wanted ∧ row'.cls = cls ∧ y.granted = row'.granted ∧ y.granted ≤ y.wanted ∧ y.shed = row'.shed ∧
      y.limited = row'.limited ∧
      (levelCurrent l.rated y.wanted ≤ g.slu.freeFor t bind.branch (.drive d) →
        y.granted = y.wanted ∧ y.shed = false ∧ y.limited = false)) ∧
    (¬due → p.1.slu = g.slu ∧ y.granted = x.granted ∧ y.shed = x.shed ∧ y.limited = x.limited) ∧
    (y.pending = true ↔ powered ∧
      (x.sentKnown = false ∨
        (y.granted ≠ x.lastSent ∧ (l.deadband ≤ ((y.granted : Int) - x.lastSent).natAbs ∨ y.granted = 0 ∨ y.granted = l.maxLevel)) ∨
        (l.refresh ≠ 0 ∧ 0 < y.granted ∧ l.refresh ≤ x.roundsSinceSend) ∨ (y.granted ≠ x.lastSent ∧ x.pending = true))) ∧
    (Task.overCap d isOver l.spraySet ∈ p.2 ↔ isOver ≠ x.toldOverCap ∨ (bind.kind = .jet ∧ l.spraySet ≠ x.toldSpray))

/-- A recomputation takes the drive through its seven stages and hands it over (R82, R85–R92, R94–R97). The base level is the mode's; a live
HIGH-WARN boosts it, a live LOW-WARN or a lost channel holds it down; an occupied zone of a JET's spray set caps it, TRANSIT raises a LAMP
to its transit level, the max level caps it and latches OVER-MAX; a live trip flag latches TRIPPED, a TRIPPED or OFF drive wants 0, and a
lost trip channel caps at the fallback level. Each flag newly set posts its notice where three places are free. A bound, powered drive on
an ON branch is handed over with its class when its wanted level or class is not what the load table holds, or a hand-over is owed, and is
granted in full where that fits what is free; otherwise the load tables and its grant are left alone. UPDATE-PENDING follows R96 and R97,
and the Zone Unit is told a changed over-cap state or spray set. -/
def Obligations.LevelsFollowTheStagesAndAreHandedOver : Prop :=
  ∀ (t : Tables) (d : Fin 24) (seen : Option ChannelReport) (g : Blocks), recomputed t d seen g

/-! ## Zones, paths and the mowers' commands (chapters 8 and 9) -/

/-- The reason of a veto set, by its own definition (R138, R141). -/
def vetoSet (x : Zone) (v : Veto) : Bool :=
  match v with
  | .rain => x.rain
  | .wet => x.wet
  | .spray => x.spray
  | .noData => x.rainNoData || x.wetNoData
  | .manual => x.manual

/-- Exactly the reasons that enter a veto set on an occupied zone are reported, each for the occupant (R144). -/
def arrivalsTold (g h : Blocks) (told : List Task) : Prop :=
  ∀ (z : Fin 32) (v : Veto) (m : Fin 4), Task.vetoArrival z v m ∈ told ↔
    vetoSet (g.zone z) v = false ∧ vetoSet (h.zone z) v = true ∧ (g.zone z).occupiedBy m = true

/-- What a reading of the zones' channels leaves alone in a zone. -/
def sameButForChannels (x y : Zone) : Prop :=
  y.manual = x.manual ∧ y.occupants = x.occupants ∧ y.transitCount = x.transitCount ∧ y.holdRemaining = x.holdRemaining ∧ y.light = x.light

/-- A zone under SPRAY: windy, and a jet over cap with the zone in its spray set (R142). -/
def underSpray (u : ZoneUnit) (z : Fin 32) : Prop :=
  u.windy = true ∧ ∃ d, (u.overCaps.get d).isOver = true ∧ (u.overCaps.get d).spray.getLsbD z.val = true

/-- The Zone Unit takes a channel report: the rain state and RAIN (R139), WET and NO-DATA (R141), SPRAY (R142), dark (R149), and the veto
arrivals (R144). -/
def zonesRead (t : Tables) (r : ChannelReport) (g : Blocks) : Prop :=
  let p := zoneReport t r g
  let u := g.zones
  let h := p.1
  let isRain := t.globals.rainChannel = some r.channel
  let isWind := t.globals.windChannel = some r.channel
  let isAmbient := t.globals.ambientChannel = some r.channel
  let high := r.live.highWarn
  let lawn := fun z => (t.zones.get z).kind = ZoneKind.lawn
  let moved := isRain ∧ ((high = true ∧ u.rain ≠ .raining) ∨ (high = false ∧ u.rain = .raining))
  (moved →
    h.zones.rain = (if high then .raining else if t.globals.dryOff = 0 then .dry else .drying) ∧
    h.zones.dryOffRemaining = (if high then 0 else t.globals.dryOff) ∧
    ∀ z, ((h.zone z).rain = true ↔ h.zones.rain ≠ .dry ∧ lawn z)) ∧
  (¬moved → h.zones.rain = u.rain ∧ h.zones.dryOffRemaining = u.dryOffRemaining ∧ ∀ z, (h.zone z).rain = (g.zone z).rain) ∧
  (∀ z, (isRain → ((h.zone z).rainNoData = true ↔ r.state ≠ .fresh ∧ lawn z)) ∧
    (¬isRain → (h.zone z).rainNoData = (g.zone z).rainNoData) ∧
    ((t.zones.get z).wetChannel = some r.channel →
      (h.zone z).wet = high ∧ ((h.zone z).wetNoData = true ↔ r.state ≠ .fresh)) ∧
    ((t.zones.get z).wetChannel ≠ some r.channel → (h.zone z).wet = (g.zone z).wet ∧ (h.zone z).wetNoData = (g.zone z).wetNoData) ∧
    (isWind ∧ u.windy ≠ high → ((h.zone z).spray = true ↔ underSpray h.zones z)) ∧
    (¬(isWind ∧ u.windy ≠ high) → (h.zone z).spray = (g.zone z).spray) ∧ sameButForChannels (g.zone z) (h.zone z)) ∧
  h.zones.windy = (if isWind then high else u.windy) ∧ h.zones.overCaps = u.overCaps ∧
  h.zones.dark = (if isAmbient then r.live.lowWarn else u.dark) ∧ h.zones.transitZones = u.transitZones ∧
  arrivalsTold g h p.2 ∧
  ∀ z, Task.darkPath z ∈ p.2 ↔ isAmbient ∧ r.live.lowWarn = true ∧ u.dark = false ∧ (t.zones.get z).enabled = true ∧
    (t.zones.get z).kind = .path

/-- The Zone Unit takes a jet's over-cap state and spray set: they replace the drive's record, and SPRAY is evaluated for every zone
(R142, R144). -/
def sprayTaken (d : Fin 24) (isOver : Bool) (spray : ZoneSet) (g : Blocks) : Prop :=
  let p := takeOverCap d isOver spray g
  let h := p.1
  h.zones.overCaps = g.zones.overCaps.set d ⟨isOver, spray⟩ ∧ h.zones.windy = g.zones.windy ∧ arrivalsTold g h p.2 ∧
    ∀ z, ((h.zone z).spray = true ↔ underSpray h.zones z) ∧ h.zone z = { g.zone z with spray := (h.zone z).spray }

/-- A path's count and light (R148–R150): the count rises or falls; on an enabled PATH it lights the path where it rises from 0, in dark or
out of a hold, and starts the hold where it returns to 0; dark lights an IDLE path that is crossed; and its lamp drive's TRANSIT is matched
to the paths that are LIT or HOLDING. -/
def pathLighted (t : Tables) (z : Fin 32) (g : Blocks) : Prop :=
  let x := g.zone z
  let isPath := (t.zones.get z).enabled = true ∧ (t.zones.get z).kind = .path
  let hold := (t.zones.get z).transitHold
  let lamps := (t.zones.get z).lamp.toList.map Task.lampSync
  let zone := fun p : Blocks × List Task => p.1.zone z
  let up := pathCount t z true g
  let down := pathCount t z false g
  let dark := darkPath t z g
  (¬isPath → up = (g.setZone z { x with transitCount := x.transitCount + 1 }, []) ∧
    down = (g.setZone z { x with transitCount := x.transitCount - 1 }, []) ∧ dark = (g, [])) ∧
  (isPath → up.2 = lamps ∧ down.2 = lamps ∧ (zone up).transitCount = x.transitCount + 1 ∧ (zone down).transitCount = x.transitCount - 1 ∧
    (x.transitCount = 0 → (x.light = .idle → (zone up).light = if g.zones.dark then .lit else .idle) ∧
      (x.light = .holding → (zone up).light = .lit ∧ (zone up).holdRemaining = 0)) ∧
    (x.light = .lit ∨ 0 < x.transitCount → (zone up).light = x.light) ∧
    (x.transitCount ≤ 1 → x.light = .lit →
      (zone down).light = (if hold = 0 then .idle else .holding) ∧ (zone down).holdRemaining = hold) ∧
    (x.light ≠ .lit ∨ 1 < x.transitCount → (zone down).light = x.light ∧ (zone down).holdRemaining = x.holdRemaining) ∧
    (x.light = .idle → 0 < x.transitCount → (zone dark).light = .lit ∧ dark.2 = lamps) ∧
    (x.light ≠ .idle ∨ x.transitCount = 0 → dark = (g, []))) ∧
  ∀ d, let inTransit := ∃ y, (t.zones.get y).enabled = true ∧ (t.zones.get y).kind = .path ∧ (t.zones.get y).lamp = some d ∧
      (g.zone y).light ≠ .idle
    (((lampSync t d g).1.drive d).transit = true ↔ inTransit) ∧ (((g.drive d).transit = true ↔ inTransit) → lampSync t d g = (g, []))

/-- A mower's transit zone (R148): a position on an enabled PATH is it, on another zone it is none, and an unknown one leaves it; a change of
state to another than OUTBOUND, INBOUND and LOST makes it none; a change takes the count that falls before the count that rises, and no
change counts nothing. -/
def crossingKept (t : Tables) (m : Fin 4) (g : Blocks) : Prop :=
  let old := g.zones.transitZones.get m
  let becomes := fun (p : Blocks × List Task) (new : Option (Fin 32)) =>
    (old = new → p = (g, [])) ∧
      (old ≠ new → p.1.zones.transitZones = g.zones.transitZones.set m new ∧ p.1.zones.zones = g.zones.zones ∧
        p.2 = (old.map fun z => Task.pathCount z false).toList ++ (new.map fun z => Task.pathCount z true).toList)
  (∀ z : Fin 32, becomes (takePosition t m z.val g) (if (t.zones.get z).enabled = true ∧ (t.zones.get z).kind = .path then some z else none)) ∧
    takePosition t m 255 g = (g, []) ∧
    ∀ x : MowerState, (x = .outbound ∨ x = .inbound ∨ x = .lost → takeStateReport m x g = (g, [])) ∧
      (x ≠ .outbound → x ≠ .inbound → x ≠ .lost → becomes (takeStateReport m x g) none)

/-- The Zone Unit follows its channels, the jets and the mowers. A report of the rain channel moves the rain state between DRY, RAINING and
DRYING, with RAIN on every LAWN zone unless it is DRY, and a rain or wet channel that is not FRESH makes NO-DATA; a wet channel's HIGH-WARN
is WET on each zone naming it; a change of windy, and every report of a jet, evaluates SPRAY for every zone; each reason that enters an
occupied zone's veto set is reported, and no other; LOW-WARN of the ambient channel is dark, and its coming takes every enabled PATH (R139,
R141, R142, R144, R149). The transit zones, the counts, the lights and TRANSIT follow the mowers' states and positions (R148, R149). -/
def Obligations.ZonesFollowTheirChannelsAndMowers : Prop :=
  ∀ (t : Tables) (g : Blocks), (∀ r, zonesRead t r g) ∧ (∀ d isOver spray, sprayTaken d isOver spray g) ∧ (∀ z, pathLighted t z g) ∧
    ∀ m, crossingKept t m g

/-- A mower may be dispatched: enabled, at its dock, its battery at or above the dispatch threshold, and the gate's three conditions met
(R154, R159). -/
def mayBeSent (t : Tables) (m : Fin 4) (g : Blocks) : Prop :=
  let x := g.mower m
  (t.mowers.get m).enabled = true ∧ (x.state = .docked ∨ x.state = .charging) ∧ (t.mowers.get m).dispatchBattery ≤ x.lastBattery ∧
    g.mowers.held = false ∧ g.mowers.daylight = true ∧ g.mowers.island = false

/-- A zone can be assigned to a mower: an enabled LAWN zone without a veto or an occupant, and the mower in no zone (R145). -/
def canAssign (t : Tables) (m : Fin 4) (z : Fin 32) (g : Blocks) : Prop :=
  (t.zones.get z).kind = .lawn ∧ (t.zones.get z).enabled = true ∧ (∀ v, vetoSet (g.zone z) v = false) ∧ (g.zone z).occupants = 0 ∧
    ∀ y, (g.zone y).occupiedBy m = false

/-- A dispatch attempt (R159, R160). -/
def attempted (t : Tables) (m : Fin 4) (g : Blocks) : Prop :=
  let p := attempt t m g
  let length := t.rotationLength
  let start := g.mowers.pointer
  let entryAt := fun k : Nat => (start + k) % length
  let zoneAt := fun k : Nat => t.rotation.get (Fin.ofNat 64 (entryAt k))
  (¬mayBeSent t m g → p = (g, [])) ∧
  (mayBeSent t m g →
    (∀ k, k < length → canAssign t m (zoneAt k) g → (∀ j, j < k → ¬canAssign t m (zoneAt j) g) →
      p.1.zone (zoneAt k) = { g.zone (zoneAt k) with occupants := (g.zone (zoneAt k)).occupants ||| 1#4 <<< m.val } ∧
        p.1.mowers = { g.mowers with pointer := (entryAt k + 1) % length } ∧ p.2.getLast? = some (.dispatch m (zoneAt k))) ∧
    ((∀ k, k < length → ¬canAssign t m (zoneAt k) g) →
      p = ((withNotice g 19 m.val start length).setMower m { g.mower m with retry := 40 }, [])))

/-- The answer ASSIGNED to a mower at its dock (R156, R158, R160): where its branch takes two frames it is ASSIGNED with its zone, and
MOWER-GO is the last NORMAL entry; a CHARGING one has given up its grant, CHARGE off queued before it. A mower without a grant whose branch
takes no frame gives its zone up again. -/
def assigned (t : Tables) (m : Fin 4) (z : Fin 32) (g : Blocks) : Prop :=
  let k := t.mowers.get m
  let x := g.mower m
  let p := takeAssigned t m z g
  let y := p.1.mower m
  let go := mowerFrame k.node [2, byteOf z.val, byteOf (t.zones.get z).stint]
  let goes := y.state = .assigned ∧ y.assigned = some z ∧ y.stintSent = (t.zones.get z).stint ∧ y.returnReasons = [] ∧ y.retry = 0 ∧
    queuedAndHeld p.1 m k.branch go false .go false
  (x.state = .docked → x.chargeStanding = false → queueTakes t m g → goes) ∧
  (x.state = .charging → g.supplyState k.branch = .on → (g.line k.branch).queue.length ≤ 14 →
    goes ∧ (p.1.slu.charges.get m).granted = 0 ∧
      ∃ e ∈ (p.1.line k.branch).queue, e.frame = mowerFrame k.dock [4, 0] ∧ e.urgent = false ∧ e.origin = .mower m .charge ∧
        (⟨⟨.charge, k.branch, e.arrival⟩, false, false⟩ : HeldCommand) ∈ y.commands) ∧
  (x.state = .docked → x.chargeStanding = false → ¬queueTakes t m g →
    y.state = .assigned ∧ (p.1.zone z).occupiedBy m = false ∧ p.2.getLast? = some (.released m .drops))

/-- A dispatch that came to nothing, once RELEASED is answered (R159, R161, R162): DOCKED without a zone, the retry timer started, no attempt
made. -/
def dropped (t : Tables) (m : Fin 4) (g : Blocks) : Prop :=
  let p := afterRelease t m .drops g
  let y := p.1.mower m
  ((g.mower m).state = .assigned → y.state = .docked ∧ y.assigned = none ∧ y.retry = 40 ∧ p.2 = [.stateReport m .docked]) ∧
    ((g.mower m).state ≠ .assigned → p = (g.setMower m { g.mower m with assigned := none }, []))

/-- The outcome of the MOWER-GO of an entry (R161, R162, R170): where its record has been disabled since, only its mark goes. Otherwise the mark
and the reasons go; accepted, an ASSIGNED mower is OUTBOUND, and home owed for a return reason other than NO-DATA; not accepted, its zone is
released; where it is ASSIGNED no more nothing else changes. -/
def goTaken (t : Tables) (m : Fin 4) (b : Branch) (n : Nat) (o : CommandOutcome) (g : Blocks) : Prop :=
  let x := g.mower m
  let id : CommandId := ⟨.go, b, n⟩
  let p := takeOutcome t m id o g
  let y := p.1.mower m
  let x' := { unmarked x id with returnReasons := [] }
  let acts := (t.mowers.get m).enabled = true ∧ x.state = .assigned
  let back := x.returnReasons.any fun reason => decide (reason ≠ .veto .noData)
  (¬ownCommand x id → p = (g.setMower m (unmarked x id), [])) ∧
  (ownCommand x id → ¬acts → p = (g.setMower m x', [])) ∧
  (ownCommand x id → acts → o = .accepted → y.state = .outbound ∧ y.assigned = x.assigned ∧ y.homeOwed = (x.homeOwed || back) ∧
    (∀ h ∈ y.commands, h.id ≠ id) ∧ y.returnReasons = [] ∧
    (back = true → x.homeOwed = false → ¬commandHeld x .home → queueTakes t m g →
      queuedAndHeld p.1 m (t.mowers.get m).branch (mowerFrame (t.mowers.get m).node [3]) true .home false)) ∧
  (ownCommand x id → acts → o ≠ .accepted → ∀ z, x.assigned = some z →
    y = x' ∧ (p.1.zone z).occupiedBy m = false ∧ p.2.getLast? = some (.released m .drops))

/-- The outcome of the MOWER-HOME of an entry (R165, R170): accepted, an OUTBOUND or MOWING mower is INBOUND, and home owed is cleared as it is
for one INBOUND or HALTED; the mark goes, and otherwise, or where the record has been disabled since, nothing else changes. -/
def homeTaken (t : Tables) (m : Fin 4) (b : Branch) (n : Nat) (o : CommandOutcome) (g : Blocks) : Prop :=
  let x := g.mower m
  let id : CommandId := ⟨.home, b, n⟩
  let p := takeOutcome t m id o g
  let y := p.1.mower m
  let takes := ownCommand x id ∧ (t.mowers.get m).enabled = true ∧ o = .accepted
  (takes → x.state = .outbound ∨ x.state = .mowing →
    y = { unmarked x id with state := .inbound, homeOwed := false, retry := 0 } ∧ p.2 = [.stateReport m .inbound]) ∧
  (takes → x.state = .inbound ∨ x.state = .halted → p = (g.setMower m { unmarked x id with homeOwed := false }, [])) ∧
  (¬(takes ∧ (x.state = .outbound ∨ x.state = .mowing ∨ x.state = .inbound ∨ x.state = .halted)) →
    p = (g.setMower m (unmarked x id), []))

/-- The outcome of the CHARGE of an entry (R156, R157, R170): a CHARGING mower whose CHARGE on was not accepted is DOCKED with its grant given
up and its retry timer started, and on NO-ANSWER CHARGE off is queued; otherwise, or where the record has been disabled since, only the mark
goes. -/
def chargeTaken (t : Tables) (m : Fin 4) (b : Branch) (n : Nat) (o : CommandOutcome) (g : Blocks) : Prop :=
  let x := g.mower m
  let id : CommandId := ⟨.charge, b, n⟩
  let p := takeOutcome t m id o g
  let y := p.1.mower m
  let ends := (t.mowers.get m).enabled = true ∧ x.state = .charging ∧ o ≠ .accepted ∧
    ∃ h ∈ x.commands, h.id = id ∧ h.former = false ∧ h.on = true
  (¬ends → p = (g.setMower m (unmarked x id), [])) ∧
  (ends → y.state = .docked ∧ y.retry = 40 ∧ y.chargeStanding = false ∧ (p.1.slu.charges.get m).granted = 0 ∧
    (o ≠ .noAnswer → y.commands = (unmarked x id).commands) ∧
    (o = .noAnswer → queueTakes t m g →
      queuedAndHeld p.1 m (t.mowers.get m).branch (mowerFrame (t.mowers.get m).dock [4, 0]) false .charge false))

/-- A mower asks for charge where it may (R115, R157): enabled, DOCKED, its battery below 100, no request standing and no retry timer
running. On a branch that is not ON, or where neither what is free nor an AMBIENT load can give the current, it is denied and its retry timer
started; where the current is free it is CHARGING with its row on, and CHARGE on is queued. -/
def chargeAsked (t : Tables) (m : Fin 4) (g : Blocks) : Prop :=
  let k := t.mowers.get m
  let x := g.mower m
  let p := askCharge t m g
  let y := p.1.mower m
  let row := g.slu.charges.get m
  let row' := p.1.slu.charges.get m
  let may := k.enabled = true ∧ x.state = .docked ∧ x.lastBattery < 100 ∧ x.chargeStanding = false ∧ x.retry = 0
  let free := g.slu.freeFor t k.branch (.charge m)
  (¬may → p = (g, [])) ∧
  (may → g.supplyState k.branch ≠ .on → p = (g.setMower m { x with retry := 40 }, [])) ∧
  (may → g.supplyState k.branch = .on → row.granted ≠ 1 →
    (free < k.chargeCurrent → (∀ i, t.loadOn k.branch i = true → (g.slu.row i).cls ≠ .ambient) →
      y = { x with retry := 40 } ∧ row'.granted = 0 ∧ row'.wanted = 0) ∧
    (k.chargeCurrent ≤ free → queueTakes t m g →
      y.state = .charging ∧ row'.wanted = 1 ∧ row'.granted = 1 ∧ row'.current = k.chargeCurrent ∧
        queuedAndHeld p.1 m k.branch (mowerFrame k.dock [4, 1]) false .charge true))

/-- The Supply and Load Unit pushes a charge row (R118, R157, R158): a grant takes a standing request into CHARGING, a suspension makes the
request stand again with CHARGE off queued, and a release ends the charge and asks afresh. A push that the row no longer bears out, or that
finds the mower in another state, does nothing. -/
def chargePushed (t : Tables) (m : Fin 4) (g : Blocks) : Prop :=
  let k := t.mowers.get m
  let x := g.mower m
  let on := (g.slu.charges.get m).granted = 1
  let push := fun e => takeChargePush t m e g
  let after := fun e => (push e).1.mower m
  let queued := fun e (on : Bool) => queuedAndHeld (push e).1 m k.branch (mowerFrame k.dock [4, yesByte on]) false .charge on
  (x.chargeStanding = true → x.state = .docked → on → queueTakes t m g →
    (after .granted).state = .charging ∧ (after .granted).chargeStanding = false ∧ queued .granted true) ∧
  (¬(x.chargeStanding = true ∧ x.state = .docked ∧ on) → push .granted = (g, [])) ∧
  (x.state = .charging → ¬on →
    (after .suspended).state = .docked ∧ (after .suspended).chargeStanding = true ∧ (queueTakes t m g → queued .suspended false) ∧
      (after .released).state = .docked ∧ (after .released).chargeStanding = false ∧ (push .released).2.getLast? = some (.ask m)) ∧
  (¬(x.state = .charging ∧ ¬on) → push .suspended = (g, []) ∧ push .released = (g, []))

/-- A veto arrival on a zone (R162, R164): of a mower it is not assigned to it changes nothing. An OUTBOUND or MOWING mower of the zone is sent
home unless the reason is NO-DATA. The dispatch of an ASSIGNED one is withdrawn, its waiting MOWER-GO gone and its zone free, and DOCKED once
RELEASED is answered; with MOWER-GO in exchange and none waiting only the reason is kept. In any other state it has no effect. -/
def vetoTaken (t : Tables) (now : Round) (m : Fin 4) (g : Blocks) : Prop :=
  ∀ (z : Fin 32) (v : Veto),
    let k := t.mowers.get m
    let x := g.mower m
    let l := g.line k.branch
    let p := handle t now (.vetoArrival z v m) g
    let y := p.1.mower m
    let isGo := fun q : QueueEntry => q.origin = .mower m .go
    let inExchange := fun q : QueueEntry => ∃ e, l.exchange = some e ∧ e.origin = .entry q.arrival q.origin
    (x.assigned ≠ some z → p = (g, [])) ∧
    (x.assigned = some z →
      (x.state ≠ .assigned → x.state ≠ .outbound → x.state ≠ .mowing → p = (g, [])) ∧
      (x.state = .outbound ∨ x.state = .mowing →
        (v = .noData ∨ x.homeOwed = true → p = (g, [])) ∧
        (v ≠ .noData → p.2 = [] ∧ y.homeOwed = true ∧ y.state = x.state ∧
          (x.homeOwed = false → ¬commandHeld x .home → queueTakes t m g →
            queuedAndHeld p.1 m k.branch (mowerFrame k.node [3]) true .home false))) ∧
      (x.state = .assigned →
        ((∃ q ∈ l.queue, isGo q) → (∀ q ∈ l.queue, isGo q → inExchange q) →
          p = (g.setMower m { x with returnReasons := x.returnReasons ++ [.veto v] }, [])) ∧
        ((∀ q ∈ l.queue, ¬isGo q) ∨ (∃ q ∈ l.queue, isGo q ∧ ¬inExchange q) →
          y.state = .assigned ∧ (p.1.zone z).occupiedBy m = false ∧ p.2.getLast? = some (.released m .drops) ∧
            (l.queue.length ≤ 16 → ∀ q ∈ (p.1.line k.branch).queue, isGo q → inExchange q))))

/-- A node of a mower's record changes presence (R158, R168): only ABSENT moves a mower. Its mower node gone, a mower out of its dock is LOST, its
zone kept and no MOWER-GO waiting, and one at its dock ABSENT without grant or request. Its dock node gone, a CHARGING one is DOCKED, its grant
given up, its retry timer started and nothing queued. -/
def presenceTaken (t : Tables) (now : Round) (m : Fin 4) (g : Blocks) : Prop :=
  ∀ (b : Branch) (node : Byte),
    let k := t.mowers.get m
    let x := g.mower m
    let p := handle t now (.nodeLost b node) g
    let y := p.1.mower m
    let row := p.1.slu.charges.get m
    let concerns := fun n =>
      let r := t.mowers.get n
      r.enabled = true ∧ r.branch = b ∧ (r.node = node ∨ r.dock = node)
    let gone := row.wanted = 0 ∧ row.granted = 0
    handle t now (.presence b node .present) g = (g, []) ∧ handle t now (.presence b node .unknown) g = (g, []) ∧
    (handle t now (.presence b node .absent) g).2.getLast? = some (.nodeLost b node) ∧
    ((∀ n, ¬concerns n) → p = (g, [])) ∧
    (concerns m → (∀ n, concerns n → n = m) →
      (k.node = node →
        (x.state = .absent ∨ x.state = .lost → p = (g, [])) ∧
        (x.state = .docked ∨ x.state = .charging → y.state = .absent ∧ y.retry = 0 ∧ y.homeOwed = false ∧
          (x.state = .charging ∨ x.chargeStanding = true → gone ∧ y.chargeStanding = false)) ∧
        (x.state = .assigned ∨ x.state = .outbound ∨ x.state = .mowing ∨ x.state = .inbound ∨ x.state = .halted →
          y.state = .lost ∧ y.assigned = x.assigned ∧ y.homeOwed = false ∧ p.1.zones = g.zones ∧ p.2 = [.stateReport m .lost] ∧
            ((g.line b).queue.length ≤ 16 → ∀ q ∈ (p.1.line b).queue, q.origin = .mower m .go →
              ∃ e, (g.line b).exchange = some e ∧ e.origin = .entry q.arrival q.origin))) ∧
      (k.node ≠ node →
        (x.state ≠ .charging → p = (g, [])) ∧
        (x.state = .charging → y.state = .docked ∧ y.retry = 40 ∧ gone ∧ y.commands = x.commands ∧ p.1.lines = g.lines)))

/-- Dispatch, commands, charging, vetoes and presence of a mower (R145, R154, R156–R162, R164, R165, R168): an attempt assigns the first zone of
the rotation, from the pointer on, that can be assigned, or posts NO-ZONE and starts the retry timer; ASSIGNED takes the mower out of its dock
with MOWER-GO queued; a dispatch that comes to nothing leaves it DOCKED; each command's outcome, the request for charge, the pushes of its charge
row, a veto arrival on its zone and the absence of its nodes move it as their rules give. That a dispatch queues its MOWER-GO where an older one
is still held, and that a withdrawal takes every MOWER-GO that waits, is the model's choice (notes/assumptions/41.md), and so is that a mower
made DOCKED with its retry timer started makes no charge request on that entry (notes/assumptions/46.md). Three things are read from
the manual by inference: a push that the row no longer bears out does nothing (notes/assumptions/21.md), any kept return reason other than
NO-DATA sends the mower home (notes/assumptions/23.md), and a charge current of 0 is granted on a branch of budget 0, where R108 would deny it
(notes/assumptions/40.md). -/
def Obligations.DispatchOutcomesAndChargingMoveMowers : Prop :=
  ∀ (t : Tables) (m : Fin 4) (g : Blocks),
    attempted t m g ∧ (∀ z, assigned t m z g) ∧ dropped t m g ∧ (∀ b n o, goTaken t m b n o g) ∧
      (∀ b n o, homeTaken t m b n o g) ∧ (∀ b n o, chargeTaken t m b n o g) ∧ chargeAsked t m g ∧ chargePushed t m g ∧
      ∀ now, vetoTaken t now m g ∧ presenceTaken t now m g
end

