-- ==== Sys2Proof/Laws/Tables.lean ====
section
/-! SUPPORT. Reading a table, or a pair of branches, after a change. -/

namespace Sys2Proof

theorem Table.ext_get {α : Type} {n : Nat} {s t : Table α n} (h : ∀ i, s.get i = t.get i) : s = t := by
  obtain ⟨a, ha⟩ := s
  obtain ⟨b, hb⟩ := t
  have : a = b := List.ext_get (by rw [ha, hb]) fun k h₁ _ => h ⟨k, by omega⟩
  subst this
  rfl

@[simp] theorem Table.get_set_self {α : Type} {n : Nat} (t : Table α n) (i : Fin n) (x : α) : (t.set i x).get i = x := by
  simp [Table.get, Table.set]

theorem Table.get_set {α : Type} {n : Nat} (t : Table α n) (i j : Fin n) (x : α) :
    (t.set i x).get j = if i = j then x else t.get j := by
  simp [Table.get, Table.set, List.getElem_set, Fin.ext_iff]

@[simp] theorem Table.get_set_other {α : Type} {n : Nat} (t : Table α n) {i j : Fin n} (x : α) (h : j ≠ i) :
    (t.set i x).get j = t.get j := by
  rw [Table.get_set, if_neg (Ne.symm h)]

@[simp] theorem Table.set_set {α : Type} {n : Nat} (t : Table α n) (i : Fin n) (x y : α) : (t.set i x).set i y = t.set i y := by
  simp [Table.set]

@[simp] theorem Table.set_get {α : Type} {n : Nat} (t : Table α n) (i : Fin n) : t.set i (t.get i) = t := by
  simp [Table.get, Table.set]

@[simp] theorem Table.get_fill {α : Type} (n : Nat) (x : α) (i : Fin n) : (Table.fill n x).get i = x := by
  simp [Table.get, Table.fill]

@[simp] theorem Table.get_map {α β : Type} {n : Nat} (f : α → β) (t : Table α n) (i : Fin n) : (Table.map f t).get i = f (t.get i) := by
  simp [Table.get, Table.map]

@[simp] theorem Table.get_build {α : Type} (n : Nat) (f : Fin n → α) (i : Fin n) : (Table.build n f).get i = f i := by
  simp [Table.get, Table.build, indices]

@[simp] theorem PerBranch.get_set_self {α : Type} (p : PerBranch α) (b : Branch) (x : α) : (p.set b x).get b = x := by
  cases b <;> rfl

@[simp] theorem PerBranch.get_set_other {α : Type} (p : PerBranch α) {b c : Branch} (x : α) (h : c ≠ b) : (p.set b x).get c = p.get c := by
  cases b <;> cases c <;> first | rfl | exact absurd rfl h

@[simp] theorem PerBranch.set_set {α : Type} (p : PerBranch α) (b : Branch) (x y : α) : (p.set b x).set b y = p.set b y := by
  cases b <;> rfl

@[simp] theorem PerBranch.set_get {α : Type} (p : PerBranch α) (b : Branch) : p.set b (p.get b) = p := by cases b <;> rfl

end Sys2Proof
end

