-- ==== Sys2Proof/Laws/State.lean ====
section
/-! SUPPORT. What each named update of the blocks and of the part leaves alone, field by field, and what it leaves in the field it
changes. -/

namespace Sys2Proof.Machine

/-! ## The blocks -/

@[simp] theorem Blocks.setLine_up (g : Blocks) (b : Branch) (x : Line) : (g.setLine b x).up = g.up := rfl
@[simp] theorem Blocks.setLine_forwards (g : Blocks) (b : Branch) (x : Line) : (g.setLine b x).forwards = g.forwards := rfl
@[simp] theorem Blocks.setLine_channels (g : Blocks) (b : Branch) (x : Line) : (g.setLine b x).channels = g.channels := rfl
@[simp] theorem Blocks.setLine_drives (g : Blocks) (b : Branch) (x : Line) : (g.setLine b x).drives = g.drives := rfl
@[simp] theorem Blocks.setLine_slu (g : Blocks) (b : Branch) (x : Line) : (g.setLine b x).slu = g.slu := rfl
@[simp] theorem Blocks.setLine_cues (g : Blocks) (b : Branch) (x : Line) : (g.setLine b x).cues = g.cues := rfl
@[simp] theorem Blocks.setLine_zones (g : Blocks) (b : Branch) (x : Line) : (g.setLine b x).zones = g.zones := rfl
@[simp] theorem Blocks.setLine_mowers (g : Blocks) (b : Branch) (x : Line) : (g.setLine b x).mowers = g.mowers := rfl
@[simp] theorem Blocks.setLine_agenda (g : Blocks) (b : Branch) (x : Line) : (g.setLine b x).agenda = g.agenda := rfl

@[simp] theorem Blocks.setChannel_up (g : Blocks) (c : Fin 16) (x : Channel) : (g.setChannel c x).up = g.up := rfl
@[simp] theorem Blocks.setChannel_lines (g : Blocks) (c : Fin 16) (x : Channel) : (g.setChannel c x).lines = g.lines := rfl
@[simp] theorem Blocks.setChannel_forwards (g : Blocks) (c : Fin 16) (x : Channel) : (g.setChannel c x).forwards = g.forwards := rfl
@[simp] theorem Blocks.setChannel_drives (g : Blocks) (c : Fin 16) (x : Channel) : (g.setChannel c x).drives = g.drives := rfl
@[simp] theorem Blocks.setChannel_slu (g : Blocks) (c : Fin 16) (x : Channel) : (g.setChannel c x).slu = g.slu := rfl
@[simp] theorem Blocks.setChannel_cues (g : Blocks) (c : Fin 16) (x : Channel) : (g.setChannel c x).cues = g.cues := rfl
@[simp] theorem Blocks.setChannel_zones (g : Blocks) (c : Fin 16) (x : Channel) : (g.setChannel c x).zones = g.zones := rfl
@[simp] theorem Blocks.setChannel_mowers (g : Blocks) (c : Fin 16) (x : Channel) : (g.setChannel c x).mowers = g.mowers := rfl
@[simp] theorem Blocks.setChannel_agenda (g : Blocks) (c : Fin 16) (x : Channel) : (g.setChannel c x).agenda = g.agenda := rfl

@[simp] theorem Blocks.setDrive_up (g : Blocks) (d : Fin 24) (x : Drive) : (g.setDrive d x).up = g.up := rfl
@[simp] theorem Blocks.setDrive_lines (g : Blocks) (d : Fin 24) (x : Drive) : (g.setDrive d x).lines = g.lines := rfl
@[simp] theorem Blocks.setDrive_forwards (g : Blocks) (d : Fin 24) (x : Drive) : (g.setDrive d x).forwards = g.forwards := rfl
@[simp] theorem Blocks.setDrive_channels (g : Blocks) (d : Fin 24) (x : Drive) : (g.setDrive d x).channels = g.channels := rfl
@[simp] theorem Blocks.setDrive_slu (g : Blocks) (d : Fin 24) (x : Drive) : (g.setDrive d x).slu = g.slu := rfl
@[simp] theorem Blocks.setDrive_cues (g : Blocks) (d : Fin 24) (x : Drive) : (g.setDrive d x).cues = g.cues := rfl
@[simp] theorem Blocks.setDrive_zones (g : Blocks) (d : Fin 24) (x : Drive) : (g.setDrive d x).zones = g.zones := rfl
@[simp] theorem Blocks.setDrive_mowers (g : Blocks) (d : Fin 24) (x : Drive) : (g.setDrive d x).mowers = g.mowers := rfl
@[simp] theorem Blocks.setDrive_agenda (g : Blocks) (d : Fin 24) (x : Drive) : (g.setDrive d x).agenda = g.agenda := rfl

@[simp] theorem Blocks.setZone_up (g : Blocks) (z : Fin 32) (x : Zone) : (g.setZone z x).up = g.up := rfl
@[simp] theorem Blocks.setZone_lines (g : Blocks) (z : Fin 32) (x : Zone) : (g.setZone z x).lines = g.lines := rfl
@[simp] theorem Blocks.setZone_forwards (g : Blocks) (z : Fin 32) (x : Zone) : (g.setZone z x).forwards = g.forwards := rfl
@[simp] theorem Blocks.setZone_channels (g : Blocks) (z : Fin 32) (x : Zone) : (g.setZone z x).channels = g.channels := rfl
@[simp] theorem Blocks.setZone_drives (g : Blocks) (z : Fin 32) (x : Zone) : (g.setZone z x).drives = g.drives := rfl
@[simp] theorem Blocks.setZone_slu (g : Blocks) (z : Fin 32) (x : Zone) : (g.setZone z x).slu = g.slu := rfl
@[simp] theorem Blocks.setZone_cues (g : Blocks) (z : Fin 32) (x : Zone) : (g.setZone z x).cues = g.cues := rfl
@[simp] theorem Blocks.setZone_mowers (g : Blocks) (z : Fin 32) (x : Zone) : (g.setZone z x).mowers = g.mowers := rfl
@[simp] theorem Blocks.setZone_agenda (g : Blocks) (z : Fin 32) (x : Zone) : (g.setZone z x).agenda = g.agenda := rfl

@[simp] theorem Blocks.setMower_up (g : Blocks) (m : Fin 4) (x : Mower) : (g.setMower m x).up = g.up := rfl
@[simp] theorem Blocks.setMower_lines (g : Blocks) (m : Fin 4) (x : Mower) : (g.setMower m x).lines = g.lines := rfl
@[simp] theorem Blocks.setMower_forwards (g : Blocks) (m : Fin 4) (x : Mower) : (g.setMower m x).forwards = g.forwards := rfl
@[simp] theorem Blocks.setMower_channels (g : Blocks) (m : Fin 4) (x : Mower) : (g.setMower m x).channels = g.channels := rfl
@[simp] theorem Blocks.setMower_drives (g : Blocks) (m : Fin 4) (x : Mower) : (g.setMower m x).drives = g.drives := rfl
@[simp] theorem Blocks.setMower_slu (g : Blocks) (m : Fin 4) (x : Mower) : (g.setMower m x).slu = g.slu := rfl
@[simp] theorem Blocks.setMower_cues (g : Blocks) (m : Fin 4) (x : Mower) : (g.setMower m x).cues = g.cues := rfl
@[simp] theorem Blocks.setMower_zones (g : Blocks) (m : Fin 4) (x : Mower) : (g.setMower m x).zones = g.zones := rfl
@[simp] theorem Blocks.setMower_agenda (g : Blocks) (m : Fin 4) (x : Mower) : (g.setMower m x).agenda = g.agenda := rfl

@[simp] theorem Blocks.setCueRun_up (g : Blocks) (c : Fin 64) (x : CueRun) : (g.setCueRun c x).up = g.up := rfl
@[simp] theorem Blocks.setCueRun_lines (g : Blocks) (c : Fin 64) (x : CueRun) : (g.setCueRun c x).lines = g.lines := rfl
@[simp] theorem Blocks.setCueRun_forwards (g : Blocks) (c : Fin 64) (x : CueRun) : (g.setCueRun c x).forwards = g.forwards := rfl
@[simp] theorem Blocks.setCueRun_channels (g : Blocks) (c : Fin 64) (x : CueRun) : (g.setCueRun c x).channels = g.channels := rfl
@[simp] theorem Blocks.setCueRun_drives (g : Blocks) (c : Fin 64) (x : CueRun) : (g.setCueRun c x).drives = g.drives := rfl
@[simp] theorem Blocks.setCueRun_slu (g : Blocks) (c : Fin 64) (x : CueRun) : (g.setCueRun c x).slu = g.slu := rfl
@[simp] theorem Blocks.setCueRun_zones (g : Blocks) (c : Fin 64) (x : CueRun) : (g.setCueRun c x).zones = g.zones := rfl
@[simp] theorem Blocks.setCueRun_mowers (g : Blocks) (c : Fin 64) (x : CueRun) : (g.setCueRun c x).mowers = g.mowers := rfl
@[simp] theorem Blocks.setCueRun_agenda (g : Blocks) (c : Fin 64) (x : CueRun) : (g.setCueRun c x).agenda = g.agenda := rfl

@[simp] theorem Blocks.setSlu_up (g : Blocks) (u : SupplyUnit) : (g.setSlu u).up = g.up := rfl
@[simp] theorem Blocks.setSlu_lines (g : Blocks) (u : SupplyUnit) : (g.setSlu u).lines = g.lines := rfl
@[simp] theorem Blocks.setSlu_forwards (g : Blocks) (u : SupplyUnit) : (g.setSlu u).forwards = g.forwards := rfl
@[simp] theorem Blocks.setSlu_channels (g : Blocks) (u : SupplyUnit) : (g.setSlu u).channels = g.channels := rfl
@[simp] theorem Blocks.setSlu_drives (g : Blocks) (u : SupplyUnit) : (g.setSlu u).drives = g.drives := rfl
@[simp] theorem Blocks.setSlu_cues (g : Blocks) (u : SupplyUnit) : (g.setSlu u).cues = g.cues := rfl
@[simp] theorem Blocks.setSlu_zones (g : Blocks) (u : SupplyUnit) : (g.setSlu u).zones = g.zones := rfl
@[simp] theorem Blocks.setSlu_mowers (g : Blocks) (u : SupplyUnit) : (g.setSlu u).mowers = g.mowers := rfl
@[simp] theorem Blocks.setSlu_agenda (g : Blocks) (u : SupplyUnit) : (g.setSlu u).agenda = g.agenda := rfl

@[simp] theorem Blocks.offer_lines (g : Blocks) (f : Frame) : (g.offer f).lines = g.lines := rfl
@[simp] theorem Blocks.offer_forwards (g : Blocks) (f : Frame) : (g.offer f).forwards = g.forwards := rfl
@[simp] theorem Blocks.offer_channels (g : Blocks) (f : Frame) : (g.offer f).channels = g.channels := rfl
@[simp] theorem Blocks.offer_drives (g : Blocks) (f : Frame) : (g.offer f).drives = g.drives := rfl
@[simp] theorem Blocks.offer_slu (g : Blocks) (f : Frame) : (g.offer f).slu = g.slu := rfl
@[simp] theorem Blocks.offer_cues (g : Blocks) (f : Frame) : (g.offer f).cues = g.cues := rfl
@[simp] theorem Blocks.offer_zones (g : Blocks) (f : Frame) : (g.offer f).zones = g.zones := rfl
@[simp] theorem Blocks.offer_mowers (g : Blocks) (f : Frame) : (g.offer f).mowers = g.mowers := rfl
@[simp] theorem Blocks.offer_agenda (g : Blocks) (f : Frame) : (g.offer f).agenda = g.agenda := rfl

@[simp] theorem Blocks.post_lines (g : Blocks) (n : Notice) (k : Nat) (v w : Int) : (g.post n k v w).lines = g.lines := rfl
@[simp] theorem Blocks.post_forwards (g : Blocks) (n : Notice) (k : Nat) (v w : Int) : (g.post n k v w).forwards = g.forwards := rfl
@[simp] theorem Blocks.post_channels (g : Blocks) (n : Notice) (k : Nat) (v w : Int) : (g.post n k v w).channels = g.channels := rfl
@[simp] theorem Blocks.post_drives (g : Blocks) (n : Notice) (k : Nat) (v w : Int) : (g.post n k v w).drives = g.drives := rfl
@[simp] theorem Blocks.post_slu (g : Blocks) (n : Notice) (k : Nat) (v w : Int) : (g.post n k v w).slu = g.slu := rfl
@[simp] theorem Blocks.post_cues (g : Blocks) (n : Notice) (k : Nat) (v w : Int) : (g.post n k v w).cues = g.cues := rfl
@[simp] theorem Blocks.post_zones (g : Blocks) (n : Notice) (k : Nat) (v w : Int) : (g.post n k v w).zones = g.zones := rfl
@[simp] theorem Blocks.post_mowers (g : Blocks) (n : Notice) (k : Nat) (v w : Int) : (g.post n k v w).mowers = g.mowers := rfl
@[simp] theorem Blocks.post_agenda (g : Blocks) (n : Notice) (k : Nat) (v w : Int) : (g.post n k v w).agenda = g.agenda := rfl

@[simp] theorem Blocks.setLine_lines (g : Blocks) (b : Branch) (x : Line) : (g.setLine b x).lines = g.lines.set b x := rfl
@[simp] theorem Blocks.setChannel_channels (g : Blocks) (c : Fin 16) (x : Channel) :
    (g.setChannel c x).channels = g.channels.set c x := rfl
@[simp] theorem Blocks.setDrive_drives (g : Blocks) (d : Fin 24) (x : Drive) : (g.setDrive d x).drives = g.drives.set d x := rfl
@[simp] theorem Blocks.setZone_zones (g : Blocks) (z : Fin 32) (x : Zone) :
    (g.setZone z x).zones = { g.zones with zones := g.zones.zones.set z x } := rfl
@[simp] theorem Blocks.setMower_mowers (g : Blocks) (m : Fin 4) (x : Mower) :
    (g.setMower m x).mowers = { g.mowers with mowers := g.mowers.mowers.set m x } := rfl
@[simp] theorem Blocks.setCueRun_cues (g : Blocks) (c : Fin 64) (x : CueRun) :
    (g.setCueRun c x).cues = { g.cues with runs := g.cues.runs.set c x } := rfl
@[simp] theorem Blocks.setSlu_slu (g : Blocks) (u : SupplyUnit) : (g.setSlu u).slu = u := rfl
@[simp] theorem Blocks.offer_up (g : Blocks) (f : Frame) : (g.offer f).up = g.up.offer f := rfl
@[simp] theorem Blocks.post_up (g : Blocks) (n : Notice) (k : Nat) (v w : Int) :
    (g.post n k v w).up = g.up.offer (noticeFrame n.code k v w) := rfl

/-! ## One record read after an update -/

@[simp] theorem Blocks.setLine_line_self (g : Blocks) (b : Branch) (x : Line) : (g.setLine b x).line b = x :=
  PerBranch.get_set_self _ _ _
@[simp] theorem Blocks.setLine_line_other (g : Blocks) (b e : Branch) (x : Line) (h : e ≠ b) : (g.setLine b x).line e = g.line e :=
  PerBranch.get_set_other _ _ h
@[simp] theorem Blocks.setChannel_channel_self (g : Blocks) (c : Fin 16) (x : Channel) : (g.setChannel c x).channel c = x :=
  Table.get_set_self _ _ _
@[simp] theorem Blocks.setChannel_channel_other (g : Blocks) (c e : Fin 16) (x : Channel) (h : e ≠ c) : (g.setChannel c x).channel e = g.channel e :=
  Table.get_set_other _ _ h
@[simp] theorem Blocks.setDrive_drive_self (g : Blocks) (d : Fin 24) (x : Drive) : (g.setDrive d x).drive d = x :=
  Table.get_set_self _ _ _
@[simp] theorem Blocks.setDrive_drive_other (g : Blocks) (d e : Fin 24) (x : Drive) (h : e ≠ d) : (g.setDrive d x).drive e = g.drive e :=
  Table.get_set_other _ _ h
@[simp] theorem Blocks.setZone_zone_self (g : Blocks) (z : Fin 32) (x : Zone) : (g.setZone z x).zone z = x :=
  Table.get_set_self _ _ _
@[simp] theorem Blocks.setZone_zone_other (g : Blocks) (z e : Fin 32) (x : Zone) (h : e ≠ z) : (g.setZone z x).zone e = g.zone e :=
  Table.get_set_other _ _ h
@[simp] theorem Blocks.setMower_mower_self (g : Blocks) (m : Fin 4) (x : Mower) : (g.setMower m x).mower m = x :=
  Table.get_set_self _ _ _
@[simp] theorem Blocks.setMower_mower_other (g : Blocks) (m e : Fin 4) (x : Mower) (h : e ≠ m) : (g.setMower m x).mower e = g.mower e :=
  Table.get_set_other _ _ h
@[simp] theorem Blocks.setCueRun_cueRun_self (g : Blocks) (c : Fin 64) (x : CueRun) : (g.setCueRun c x).cueRun c = x :=
  Table.get_set_self _ _ _
@[simp] theorem Blocks.setCueRun_cueRun_other (g : Blocks) (c e : Fin 64) (x : CueRun) (h : e ≠ c) : (g.setCueRun c x).cueRun e = g.cueRun e :=
  Table.get_set_other _ _ h

@[simp] theorem Blocks.setChannel_line (g : Blocks) (c : Fin 16) (x : Channel) (e : Branch) : (g.setChannel c x).line e = g.line e := rfl
@[simp] theorem Blocks.setDrive_line (g : Blocks) (d : Fin 24) (x : Drive) (e : Branch) : (g.setDrive d x).line e = g.line e := rfl
@[simp] theorem Blocks.setZone_line (g : Blocks) (z : Fin 32) (x : Zone) (e : Branch) : (g.setZone z x).line e = g.line e := rfl
@[simp] theorem Blocks.setMower_line (g : Blocks) (m : Fin 4) (x : Mower) (e : Branch) : (g.setMower m x).line e = g.line e := rfl
@[simp] theorem Blocks.setCueRun_line (g : Blocks) (c : Fin 64) (x : CueRun) (e : Branch) : (g.setCueRun c x).line e = g.line e := rfl
@[simp] theorem Blocks.setSlu_line (g : Blocks) (u : SupplyUnit) (e : Branch) : (g.setSlu u).line e = g.line e := rfl
@[simp] theorem Blocks.offer_line (g : Blocks) (f : Frame) (e : Branch) : (g.offer f).line e = g.line e := rfl
@[simp] theorem Blocks.post_line (g : Blocks) (n : Notice) (k : Nat) (v w : Int) (e : Branch) : (g.post n k v w).line e = g.line e := rfl

@[simp] theorem Blocks.setLine_channel (g : Blocks) (b : Branch) (x : Line) (e : Fin 16) : (g.setLine b x).channel e = g.channel e := rfl
@[simp] theorem Blocks.setDrive_channel (g : Blocks) (d : Fin 24) (x : Drive) (e : Fin 16) : (g.setDrive d x).channel e = g.channel e := rfl
@[simp] theorem Blocks.setZone_channel (g : Blocks) (z : Fin 32) (x : Zone) (e : Fin 16) : (g.setZone z x).channel e = g.channel e := rfl
@[simp] theorem Blocks.setMower_channel (g : Blocks) (m : Fin 4) (x : Mower) (e : Fin 16) : (g.setMower m x).channel e = g.channel e := rfl
@[simp] theorem Blocks.setCueRun_channel (g : Blocks) (c : Fin 64) (x : CueRun) (e : Fin 16) : (g.setCueRun c x).channel e = g.channel e := rfl
@[simp] theorem Blocks.setSlu_channel (g : Blocks) (u : SupplyUnit) (e : Fin 16) : (g.setSlu u).channel e = g.channel e := rfl
@[simp] theorem Blocks.offer_channel (g : Blocks) (f : Frame) (e : Fin 16) : (g.offer f).channel e = g.channel e := rfl
@[simp] theorem Blocks.post_channel (g : Blocks) (n : Notice) (k : Nat) (v w : Int) (e : Fin 16) : (g.post n k v w).channel e = g.channel e := rfl

@[simp] theorem Blocks.setLine_drive (g : Blocks) (b : Branch) (x : Line) (e : Fin 24) : (g.setLine b x).drive e = g.drive e := rfl
@[simp] theorem Blocks.setChannel_drive (g : Blocks) (c : Fin 16) (x : Channel) (e : Fin 24) : (g.setChannel c x).drive e = g.drive e := rfl
@[simp] theorem Blocks.setZone_drive (g : Blocks) (z : Fin 32) (x : Zone) (e : Fin 24) : (g.setZone z x).drive e = g.drive e := rfl
@[simp] theorem Blocks.setMower_drive (g : Blocks) (m : Fin 4) (x : Mower) (e : Fin 24) : (g.setMower m x).drive e = g.drive e := rfl
@[simp] theorem Blocks.setCueRun_drive (g : Blocks) (c : Fin 64) (x : CueRun) (e : Fin 24) : (g.setCueRun c x).drive e = g.drive e := rfl
@[simp] theorem Blocks.setSlu_drive (g : Blocks) (u : SupplyUnit) (e : Fin 24) : (g.setSlu u).drive e = g.drive e := rfl
@[simp] theorem Blocks.offer_drive (g : Blocks) (f : Frame) (e : Fin 24) : (g.offer f).drive e = g.drive e := rfl
@[simp] theorem Blocks.post_drive (g : Blocks) (n : Notice) (k : Nat) (v w : Int) (e : Fin 24) : (g.post n k v w).drive e = g.drive e := rfl

@[simp] theorem Blocks.setLine_zone (g : Blocks) (b : Branch) (x : Line) (e : Fin 32) : (g.setLine b x).zone e = g.zone e := rfl
@[simp] theorem Blocks.setChannel_zone (g : Blocks) (c : Fin 16) (x : Channel) (e : Fin 32) : (g.setChannel c x).zone e = g.zone e := rfl
@[simp] theorem Blocks.setDrive_zone (g : Blocks) (d : Fin 24) (x : Drive) (e : Fin 32) : (g.setDrive d x).zone e = g.zone e := rfl
@[simp] theorem Blocks.setMower_zone (g : Blocks) (m : Fin 4) (x : Mower) (e : Fin 32) : (g.setMower m x).zone e = g.zone e := rfl
@[simp] theorem Blocks.setCueRun_zone (g : Blocks) (c : Fin 64) (x : CueRun) (e : Fin 32) : (g.setCueRun c x).zone e = g.zone e := rfl
@[simp] theorem Blocks.setSlu_zone (g : Blocks) (u : SupplyUnit) (e : Fin 32) : (g.setSlu u).zone e = g.zone e := rfl
@[simp] theorem Blocks.offer_zone (g : Blocks) (f : Frame) (e : Fin 32) : (g.offer f).zone e = g.zone e := rfl
@[simp] theorem Blocks.post_zone (g : Blocks) (n : Notice) (k : Nat) (v w : Int) (e : Fin 32) : (g.post n k v w).zone e = g.zone e := rfl

@[simp] theorem Blocks.setLine_mower (g : Blocks) (b : Branch) (x : Line) (e : Fin 4) : (g.setLine b x).mower e = g.mower e := rfl
@[simp] theorem Blocks.setChannel_mower (g : Blocks) (c : Fin 16) (x : Channel) (e : Fin 4) : (g.setChannel c x).mower e = g.mower e := rfl
@[simp] theorem Blocks.setDrive_mower (g : Blocks) (d : Fin 24) (x : Drive) (e : Fin 4) : (g.setDrive d x).mower e = g.mower e := rfl
@[simp] theorem Blocks.setZone_mower (g : Blocks) (z : Fin 32) (x : Zone) (e : Fin 4) : (g.setZone z x).mower e = g.mower e := rfl
@[simp] theorem Blocks.setCueRun_mower (g : Blocks) (c : Fin 64) (x : CueRun) (e : Fin 4) : (g.setCueRun c x).mower e = g.mower e := rfl
@[simp] theorem Blocks.setSlu_mower (g : Blocks) (u : SupplyUnit) (e : Fin 4) : (g.setSlu u).mower e = g.mower e := rfl
@[simp] theorem Blocks.offer_mower (g : Blocks) (f : Frame) (e : Fin 4) : (g.offer f).mower e = g.mower e := rfl
@[simp] theorem Blocks.post_mower (g : Blocks) (n : Notice) (k : Nat) (v w : Int) (e : Fin 4) : (g.post n k v w).mower e = g.mower e := rfl

@[simp] theorem Blocks.setLine_cueRun (g : Blocks) (b : Branch) (x : Line) (e : Fin 64) : (g.setLine b x).cueRun e = g.cueRun e := rfl
@[simp] theorem Blocks.setChannel_cueRun (g : Blocks) (c : Fin 16) (x : Channel) (e : Fin 64) : (g.setChannel c x).cueRun e = g.cueRun e := rfl
@[simp] theorem Blocks.setDrive_cueRun (g : Blocks) (d : Fin 24) (x : Drive) (e : Fin 64) : (g.setDrive d x).cueRun e = g.cueRun e := rfl
@[simp] theorem Blocks.setZone_cueRun (g : Blocks) (z : Fin 32) (x : Zone) (e : Fin 64) : (g.setZone z x).cueRun e = g.cueRun e := rfl
@[simp] theorem Blocks.setMower_cueRun (g : Blocks) (m : Fin 4) (x : Mower) (e : Fin 64) : (g.setMower m x).cueRun e = g.cueRun e := rfl
@[simp] theorem Blocks.setSlu_cueRun (g : Blocks) (u : SupplyUnit) (e : Fin 64) : (g.setSlu u).cueRun e = g.cueRun e := rfl
@[simp] theorem Blocks.offer_cueRun (g : Blocks) (f : Frame) (e : Fin 64) : (g.offer f).cueRun e = g.cueRun e := rfl
@[simp] theorem Blocks.post_cueRun (g : Blocks) (n : Notice) (k : Nat) (v w : Int) (e : Fin 64) : (g.post n k v w).cueRun e = g.cueRun e := rfl

@[simp] theorem Blocks.setLine_supplyState (g : Blocks) (b : Branch) (x : Line) (e : Branch) : (g.setLine b x).supplyState e = g.supplyState e := rfl
@[simp] theorem Blocks.setLine_isOn (g : Blocks) (b : Branch) (x : Line) (e : Branch) : (g.setLine b x).isOn e = g.isOn e := rfl
@[simp] theorem Blocks.setChannel_supplyState (g : Blocks) (c : Fin 16) (x : Channel) (e : Branch) : (g.setChannel c x).supplyState e = g.supplyState e := rfl
@[simp] theorem Blocks.setChannel_isOn (g : Blocks) (c : Fin 16) (x : Channel) (e : Branch) : (g.setChannel c x).isOn e = g.isOn e := rfl
@[simp] theorem Blocks.setDrive_supplyState (g : Blocks) (d : Fin 24) (x : Drive) (e : Branch) : (g.setDrive d x).supplyState e = g.supplyState e := rfl
@[simp] theorem Blocks.setDrive_isOn (g : Blocks) (d : Fin 24) (x : Drive) (e : Branch) : (g.setDrive d x).isOn e = g.isOn e := rfl
@[simp] theorem Blocks.setZone_supplyState (g : Blocks) (z : Fin 32) (x : Zone) (e : Branch) : (g.setZone z x).supplyState e = g.supplyState e := rfl
@[simp] theorem Blocks.setZone_isOn (g : Blocks) (z : Fin 32) (x : Zone) (e : Branch) : (g.setZone z x).isOn e = g.isOn e := rfl
@[simp] theorem Blocks.setMower_supplyState (g : Blocks) (m : Fin 4) (x : Mower) (e : Branch) : (g.setMower m x).supplyState e = g.supplyState e := rfl
@[simp] theorem Blocks.setMower_isOn (g : Blocks) (m : Fin 4) (x : Mower) (e : Branch) : (g.setMower m x).isOn e = g.isOn e := rfl
@[simp] theorem Blocks.setCueRun_supplyState (g : Blocks) (c : Fin 64) (x : CueRun) (e : Branch) : (g.setCueRun c x).supplyState e = g.supplyState e := rfl
@[simp] theorem Blocks.setCueRun_isOn (g : Blocks) (c : Fin 64) (x : CueRun) (e : Branch) : (g.setCueRun c x).isOn e = g.isOn e := rfl
@[simp] theorem Blocks.offer_supplyState (g : Blocks) (f : Frame) (e : Branch) : (g.offer f).supplyState e = g.supplyState e := rfl
@[simp] theorem Blocks.offer_isOn (g : Blocks) (f : Frame) (e : Branch) : (g.offer f).isOn e = g.isOn e := rfl
@[simp] theorem Blocks.post_supplyState (g : Blocks) (n : Notice) (k : Nat) (v w : Int) (e : Branch) : (g.post n k v w).supplyState e = g.supplyState e := rfl
@[simp] theorem Blocks.post_isOn (g : Blocks) (n : Notice) (k : Nat) (v w : Int) (e : Branch) : (g.post n k v w).isOn e = g.isOn e := rfl

/-! ## The Supply and Load Unit -/

@[simp] theorem SupplyUnit.setSupply_drives (u : SupplyUnit) (b : Branch) (x : Supply) : (u.setSupply b x).drives = u.drives := rfl
@[simp] theorem SupplyUnit.setSupply_charges (u : SupplyUnit) (b : Branch) (x : Supply) : (u.setSupply b x).charges = u.charges := rfl
@[simp] theorem SupplyUnit.setSupply_supplyLow (u : SupplyUnit) (b : Branch) (x : Supply) :
    (u.setSupply b x).supplyLow = u.supplyLow := rfl
@[simp] theorem SupplyUnit.setSupply_supply (u : SupplyUnit) (b : Branch) (x : Supply) :
    (u.setSupply b x).supply = u.supply.set b x := rfl
@[simp] theorem SupplyUnit.setRow_supply (u : SupplyUnit) (i : LoadId) (r : LoadRow) : (u.setRow i r).supply = u.supply := by
  cases i <;> rfl
@[simp] theorem SupplyUnit.setRow_supplyLow (u : SupplyUnit) (i : LoadId) (r : LoadRow) : (u.setRow i r).supplyLow = u.supplyLow := by
  cases i <;> rfl
@[simp] theorem SupplyUnit.setSupply_row (u : SupplyUnit) (b : Branch) (x : Supply) (i : LoadId) : (u.setSupply b x).row i = u.row i := by
  cases i <;> rfl
@[simp] theorem SupplyUnit.setRow_row_self (u : SupplyUnit) (i : LoadId) (r : LoadRow) : (u.setRow i r).row i = r := by
  cases i <;> simp [SupplyUnit.row, SupplyUnit.setRow]
@[simp] theorem SupplyUnit.setRow_row_other (u : SupplyUnit) (i j : LoadId) (r : LoadRow) (h : j ≠ i) :
    (u.setRow i r).row j = u.row j := by
  cases i <;> cases j <;> first | rfl | (simp only [SupplyUnit.row, SupplyUnit.setRow]; exact Table.get_set_other _ _ (by simpa using h))

/-! ## The part -/

@[simp] theorem finishRequest_life (s : State) : (finishRequest s).life = s.life := rfl
@[simp] theorem finishRequest_tables (s : State) : (finishRequest s).tables = s.tables := rfl
@[simp] theorem finishRequest_clock (s : State) : (finishRequest s).clock = s.clock := rfl
@[simp] theorem finishRequest_trunk (s : State) : (finishRequest s).trunk = s.trunk := rfl
@[simp] theorem finishRequest_pending (s : State) : (finishRequest s).pending = s.pending := rfl
@[simp] theorem finishRequest_blocks (s : State) : (finishRequest s).blocks = s.blocks := rfl

@[simp] theorem popFifo_life (rest : List FifoEntry) (s : State) : (popFifo rest s).life = s.life := rfl
@[simp] theorem popFifo_tables (rest : List FifoEntry) (s : State) : (popFifo rest s).tables = s.tables := rfl
@[simp] theorem popFifo_clock (rest : List FifoEntry) (s : State) : (popFifo rest s).clock = s.clock := rfl
@[simp] theorem popFifo_agent (rest : List FifoEntry) (s : State) : (popFifo rest s).agent = s.agent := rfl
@[simp] theorem popFifo_pending (rest : List FifoEntry) (s : State) : (popFifo rest s).pending = s.pending := rfl
@[simp] theorem popFifo_blocks (rest : List FifoEntry) (s : State) : (popFifo rest s).blocks = s.blocks := rfl

@[simp] theorem placeReply_life (r : Request) (res : Result) (n : Nat) (data : List Byte) (s : State) : (placeReply r res n data s).life = s.life := rfl
@[simp] theorem placeReply_tables (r : Request) (res : Result) (n : Nat) (data : List Byte) (s : State) : (placeReply r res n data s).tables = s.tables := rfl
@[simp] theorem placeReply_clock (r : Request) (res : Result) (n : Nat) (data : List Byte) (s : State) : (placeReply r res n data s).clock = s.clock := rfl
@[simp] theorem placeReply_trunk (r : Request) (res : Result) (n : Nat) (data : List Byte) (s : State) : (placeReply r res n data s).trunk = s.trunk := rfl
@[simp] theorem placeReply_agent (r : Request) (res : Result) (n : Nat) (data : List Byte) (s : State) : (placeReply r res n data s).agent = s.agent := rfl
@[simp] theorem placeReply_pending (r : Request) (res : Result) (n : Nat) (data : List Byte) (s : State) : (placeReply r res n data s).pending = s.pending := rfl

@[simp] theorem actOn_life (f : Blocks → Acts) (s : State) : (actOn f s).life = s.life := rfl
@[simp] theorem actOn_tables (f : Blocks → Acts) (s : State) : (actOn f s).tables = s.tables := rfl
@[simp] theorem actOn_clock (f : Blocks → Acts) (s : State) : (actOn f s).clock = s.clock := rfl
@[simp] theorem actOn_trunk (f : Blocks → Acts) (s : State) : (actOn f s).trunk = s.trunk := rfl
@[simp] theorem actOn_agent (f : Blocks → Acts) (s : State) : (actOn f s).agent = s.agent := rfl
@[simp] theorem actOn_pending (f : Blocks → Acts) (s : State) : (actOn f s).pending = s.pending := rfl

@[simp] theorem finishRequest_agent (s : State) : (finishRequest s).agent = { s.agent with request := none } := rfl
@[simp] theorem popFifo_trunk (rest : List FifoEntry) (s : State) : (popFifo rest s).trunk = { s.trunk with fifo := rest } := rfl
@[simp] theorem placeReply_blocks (r : Request) (res : Result) (n : Nat) (data : List Byte) (s : State) :
    (placeReply r res n data s).blocks =
      { s.blocks with up := s.blocks.up.placeReply (replyFrame r res n data) false } := rfl
@[simp] theorem actOn_blocks (f : Blocks → Acts) (s : State) :
    (actOn f s).blocks = settleActs s.tables s.clock.round (f s.blocks) := rfl

end Sys2Proof.Machine
end

