-- ==== Sys2Proof/Laws/Ops.lean ====
section
/-! SUPPORT. What the shared operations can do: offers to the upstream queue, stored rounds, acts one after another, and the running of
events. -/

namespace Sys2Proof.Machine

/-! ## The upstream queue -/

/-- One upstream queue reached from another by offering frames. -/
def Upstream.Offered (u v : Upstream) : Prop := ∃ fs : List Frame, v = fs.foldl Upstream.offer u

theorem Upstream.Offered.refl (u : Upstream) : u.Offered u := ⟨[], rfl⟩

theorem Upstream.Offered.one (u : Upstream) (f : Frame) : u.Offered (u.offer f) := ⟨[f], rfl⟩

theorem Upstream.Offered.trans {u v w : Upstream} (h : u.Offered v) (k : v.Offered w) : u.Offered w := by
  obtain ⟨fs, rfl⟩ := h
  obtain ⟨gs, rfl⟩ := k
  exact ⟨fs ++ gs, by rw [List.foldl_append]⟩

/-- An offer places its frame last where it finds room, and else counts it lost. -/
theorem Upstream.offer_cases (u : Upstream) (f : Frame) :
    (u.hasRoom = true ∧ u.offer f = { u with queue := u.queue ++ [⟨f, false⟩] }) ∨
      (u.hasRoom = false ∧ u.offer f = { u with lost := min 255 (u.lost + 1) }) := by
  cases h : u.hasRoom
  · exact .inr ⟨rfl, by simp [Upstream.offer, h, satInc, Config.count8]⟩
  · exact .inl ⟨rfl, by simp [Upstream.offer, h]⟩

/-- What holds of a queue and is kept by each offer holds of every queue offered from it. -/
theorem Upstream.Offered.keeps {P : Upstream → Prop} (hp : ∀ u f, P u → P (u.offer f)) {u v : Upstream} (h : u.Offered v) (hu : P u) :
    P v := by
  obtain ⟨fs, rfl⟩ := h
  induction fs generalizing u with
  | nil => exact hu
  | cons f fs ih => exact ih (hp u f hu)

@[simp] theorem Upstream.offer_claimed (u : Upstream) (f : Frame) : (u.offer f).claimed = u.claimed := by
  rcases u.offer_cases f with ⟨-, h⟩ | ⟨-, h⟩ <;> simp [h]

theorem Upstream.Offered.claimed {u v : Upstream} (h : u.Offered v) : v.claimed = u.claimed :=
  h.keeps (P := fun x => x.claimed = u.claimed) (fun x f hx => by simp [hx]) rfl

/-- Offers only add frames at the end of the queue. -/
theorem Upstream.Offered.queue {u v : Upstream} (h : u.Offered v) : ∃ xs, v.queue = u.queue ++ xs :=
  h.keeps (P := fun x => ∃ xs, x.queue = u.queue ++ xs) (fun x f ⟨xs, hx⟩ => by
    rcases x.offer_cases f with ⟨-, h⟩ | ⟨-, h⟩
    · exact ⟨xs ++ [⟨f, false⟩], by simp [h, hx]⟩
    · exact ⟨xs, by simp [h, hx]⟩) ⟨[], by simp⟩

theorem Upstream.Offered.mem {u v : Upstream} (h : u.Offered v) {x : UpFrame} (hx : x ∈ u.queue) : x ∈ v.queue := by
  obtain ⟨xs, hv⟩ := h.queue
  rw [hv]
  exact List.mem_append_left _ hx

/-- Room is for at most 28 REPORT and NOTICE frames in at most 32 places. -/
theorem Upstream.hasRoom_iff (u : Upstream) : u.hasRoom = true ↔ u.reports < 28 ∧ u.inUse < 32 := by
  unfold Upstream.hasRoom
  rw [Bool.and_eq_true, decide_eq_true_iff, decide_eq_true_iff]
  rfl

theorem Upstream.reports_append (u : Upstream) (x : UpFrame) :
    Upstream.reports { u with queue := u.queue ++ [x] } ≤ u.reports + 1 := by
  simp only [Upstream.reports, List.countP_append, List.countP_cons, List.countP_nil]
  split <;> omega

/-! ## Stored rounds -/

/-- A stored round that has been reached stays so as the counter comes to its next round. -/
theorem StoredRound.reached_tick (r : StoredRound) (now : Round) (h : r.reached now = true) :
    (r.tick now).reached (now + 1) = true := by
  unfold StoredRound.tick
  split
  · simp [StoredRound.reached]
  · rename_i hne
    simp only [StoredRound.reached, Bool.or_eq_true, decide_eq_true_eq] at h ⊢
    rcases h with h | h
    · exact .inl h
    · refine .inr ?_
      have e : r.elapsed (now + 1) = (r.elapsed now + 1) % 4294967296 := by
        simp only [StoredRound.elapsed]
        have : now + 1 - r.round = (now - r.round) + 1 := by
          rw [BitVec.sub_eq_add_neg, BitVec.sub_eq_add_neg, BitVec.add_assoc, BitVec.add_assoc, BitVec.add_comm 1]
        rw [this, BitVec.toNat_add]
        rfl
      rw [e]
      simp only [Config.maxOverdue] at *
      omega

/-! ## Acts -/

@[simp] theorem done_fst (g : Blocks) : (done g).1 = g := rfl
@[simp] theorem done_snd (g : Blocks) : (done g).2 = [] := rfl
@[simp] theorem Acts.andThen_fst (p : Acts) (f : Blocks → Acts) : (p.andThen f).1 = (f p.1).1 := rfl
@[simp] theorem Acts.andThen_snd (p : Acts) (f : Blocks → Acts) : (p.andThen f).2 = p.2 ++ (f p.1).2 := rfl
@[simp] theorem Acts.hand_fst (p : Acts) (ts : List Task) : (p.hand ts).1 = p.1 := rfl
@[simp] theorem Acts.hand_snd (p : Acts) (ts : List Task) : (p.hand ts).2 = p.2 ++ ts := rfl
@[simp] theorem Acts.change_fst (p : Acts) (f : Blocks → Blocks) : (p.change f).1 = f p.1 := rfl
@[simp] theorem Acts.change_snd (p : Acts) (f : Blocks → Blocks) : (p.change f).2 = p.2 := rfl
@[simp] theorem actAll_nil {α : Type} (f : α → Blocks → Acts) (g : Blocks) : actAll f [] g = done g := rfl
@[simp] theorem actAll_cons {α : Type} (f : α → Blocks → Acts) (x : α) (xs : List α) (g : Blocks) :
    actAll f (x :: xs) g = (f x g).andThen (actAll f xs) := rfl

/-! ## Running events -/

@[simp] theorem run_nil (t : Tables) (now : Round) (n : Nat) (g : Blocks) : run t now n [] g = g := by
  cases n <;> rfl

@[simp] theorem run_succ (t : Tables) (now : Round) (n : Nat) (e : Task) (es : List Task) (g : Blocks) :
    run t now (n + 1) (e :: es) g = run t now n ((handle t now e g).2 ++ es) (handle t now e g).1 := rfl

/-- A relation that every event of a class keeps, and whose events hand on only events of the class, is kept by a run of them. -/
theorem run_keeps_of (t : Tables) (now : Round) (A : Task → Prop) (P : Blocks → Prop)
    (hp : ∀ e g, A e → P g → P (handle t now e g).1 ∧ ∀ x ∈ (handle t now e g).2, A x)
    (ha : ∀ g a, P g → P { g with agenda := a }) :
    ∀ (n : Nat) (es : List Task) (g : Blocks), (∀ e ∈ es, A e) → P g → P (run t now n es g)
  | n, [], g, _, hg => by rw [run_nil]; exact hg
  | 0, e :: es, g, _, hg => ha g (g.agenda ++ e :: es) hg
  | n + 1, e :: es, g, hes, hg => by
    rw [run_succ]
    obtain ⟨h₁, h₂⟩ := hp e g (hes e (by simp)) hg
    refine run_keeps_of t now A P hp ha n _ _ (fun x hx => ?_) h₁
    rcases List.mem_append.mp hx with hx | hx
    · exact h₂ x hx
    · exact hes x (by simp [hx])

/-- What every event keeps, a run keeps. -/
theorem run_keeps (t : Tables) (now : Round) (P : Blocks → Prop) (hp : ∀ e g, P g → P (handle t now e g).1)
    (ha : ∀ g a, P g → P { g with agenda := a }) (n : Nat) (es : List Task) (g : Blocks) (hg : P g) : P (run t now n es g) :=
  run_keeps_of t now (fun _ => True) P (fun e g _ hg => ⟨hp e g hg, fun _ _ => trivial⟩) ha n es g (fun _ _ => trivial) hg

/-- What every event keeps, an act with all that follows from it keeps. -/
theorem settleActs_keeps (t : Tables) (now : Round) (P : Blocks → Prop) (hp : ∀ e g, P g → P (handle t now e g).1)
    (ha : ∀ g a, P g → P { g with agenda := a }) (p : Acts) (hg : P p.1) : P (settleActs t now p) :=
  run_keeps t now P hp ha _ _ _ (ha _ _ hg)

/-- An act that hands nothing on, with no events waiting, is the act alone. -/
theorem settleActs_done (t : Tables) (now : Round) (g : Blocks) (h : g.agenda = []) : settleActs t now (g, []) = g := by
  obtain ⟨_, _, _, _, _, _, _, _, _, _⟩ := g
  simp only at h
  subst h
  simp [settleActs, settle]

/-- With no events waiting, an act is followed by what it hands on. -/
theorem settleActs_run (t : Tables) (now : Round) (p : Acts) (h : p.1.agenda = []) :
    settleActs t now p = run t now Config.cascadeFuel p.2 p.1 := by
  obtain ⟨⟨_, _, _, _, _, _, _, _, _, _⟩, ts⟩ := p
  simp only at h
  subst h
  rfl

end Sys2Proof.Machine
end

