-- ==== Sys2Proof/Laws/Events.lean ====
section
/-! SUPPORT. What every event of the blocks keeps, operation by operation: `Blocks.Keeps` is a preorder that each operation an event
comes to, and so each event and each run of events, respects. -/

namespace Sys2Proof.Machine

/-- What no event of the blocks disturbs: the upstream queue grows by offers alone; the gate's hold and island record, the shows, the
MANUAL vetoes and the manual levels stay; a TRIPPED drive stays TRIPPED. -/
structure Blocks.Keeps (g h : Blocks) : Prop where
  up : g.up.Offered h.up
  held : h.mowers.held = g.mowers.held
  island : h.mowers.island = g.mowers.island
  running : h.cues.running = g.cues.running
  veto : ∀ z, (h.zone z).manual = (g.zone z).manual
  level : ∀ d, (h.drive d).manual = (g.drive d).manual
  tripped : ∀ d, (g.drive d).tripped = true → (h.drive d).tripped = true

namespace Blocks.Keeps

theorem refl (g : Blocks) : g.Keeps g :=
  ⟨Upstream.Offered.refl _, rfl, rfl, rfl, fun _ => rfl, fun _ => rfl, fun _ h => h⟩

theorem trans {g h k : Blocks} (a : g.Keeps h) (b : h.Keeps k) : g.Keeps k :=
  ⟨a.up.trans b.up, b.held.trans a.held, b.island.trans a.island, b.running.trans a.running, fun z => (b.veto z).trans (a.veto z),
    fun d => (b.level d).trans (a.level d), fun d h => b.tripped d (a.tripped d h)⟩

/-- Blocks that differ only in fields the relation does not look at. -/
theorem same {g h : Blocks} (u : h.up = g.up) (m : h.mowers = g.mowers) (c : h.cues = g.cues) (z : h.zones = g.zones)
    (d : h.drives = g.drives) : g.Keeps h :=
  ⟨u ▸ Upstream.Offered.refl _, by rw [m], by rw [m], by rw [c], fun _ => by rw [Blocks.zone, z]; rfl,
    fun _ => by rw [Blocks.drive, d]; rfl, fun _ e => by rw [Blocks.drive, d]; exact e⟩

theorem offer (g : Blocks) (f : Frame) : g.Keeps (g.offer f) :=
  ⟨Upstream.Offered.one _ f, rfl, rfl, rfl, fun _ => rfl, fun _ => rfl, fun _ h => h⟩

theorem post (g : Blocks) (n : Notice) (k : Nat) (v w : Int) : g.Keeps (g.post n k v w) := offer g _

theorem setLine (g : Blocks) (b : Branch) (l : Line) : g.Keeps (g.setLine b l) := same rfl rfl rfl rfl rfl
theorem setChannel (g : Blocks) (c : Fin 16) (x : Channel) : g.Keeps (g.setChannel c x) := same rfl rfl rfl rfl rfl
theorem setSlu (g : Blocks) (u : SupplyUnit) : g.Keeps (g.setSlu u) := same rfl rfl rfl rfl rfl

theorem setCueRun (g : Blocks) (c : Fin 64) (x : CueRun) : g.Keeps (g.setCueRun c x) :=
  ⟨Upstream.Offered.refl _, rfl, rfl, rfl, fun _ => rfl, fun _ => rfl, fun _ h => h⟩

theorem setMower (g : Blocks) (m : Fin 4) (x : Mower) : g.Keeps (g.setMower m x) :=
  ⟨Upstream.Offered.refl _, rfl, rfl, rfl, fun _ => rfl, fun _ => rfl, fun _ h => h⟩

theorem setZone {g : Blocks} {z : Fin 32} {x : Zone} (h : x.manual = (g.zone z).manual) : g.Keeps (g.setZone z x) :=
  ⟨Upstream.Offered.refl _, rfl, rfl, rfl, fun y => by
    by_cases e : y = z
    · subst e; simpa using h
    · simp [e], fun _ => rfl, fun _ h => h⟩

theorem setDrive {g : Blocks} {d : Fin 24} {x : Drive} (hl : x.manual = (g.drive d).manual)
    (ht : (g.drive d).tripped = true → x.tripped = true) : g.Keeps (g.setDrive d x) :=
  ⟨Upstream.Offered.refl _, rfl, rfl, rfl, fun _ => rfl, fun e => by
    by_cases h : e = d
    · subst h; simpa using hl
    · simp [h], fun e => by
    by_cases h : e = d
    · subst h; simpa using ht
    · simp [h]⟩

theorem andThen {g : Blocks} {p : Acts} {f : Blocks → Acts} (a : g.Keeps p.1) (b : ∀ h : Blocks, h.Keeps (f h).1) : g.Keeps (p.andThen f).1 :=
  a.trans (b _)

theorem change {g : Blocks} {p : Acts} {f : Blocks → Blocks} (a : g.Keeps p.1) (b : ∀ h : Blocks, h.Keeps (f h)) : g.Keeps (p.change f).1 :=
  a.trans (b _)

theorem hand {g : Blocks} {p : Acts} {ts : List Task} (a : g.Keeps p.1) : g.Keeps (p.hand ts).1 := a

theorem actAll {α : Type} {f : α → Blocks → Acts} (hf : ∀ x (h : Blocks), h.Keeps (f x h).1) :
    ∀ (xs : List α) (g : Blocks), g.Keeps (actAll f xs g).1
  | [], g => refl g
  | x :: xs, g => (hf x g).trans (actAll hf xs _)

theorem foldl {α : Type} {f : Blocks → α → Blocks} (hf : ∀ x (h : Blocks), h.Keeps (f h x)) :
    ∀ (xs : List α) (g : Blocks), g.Keeps (xs.foldl f g)
  | [], g => refl g
  | x :: xs, g => (hf x g).trans (foldl hf xs _)

theorem ite {g : Blocks} {c : Prop} [Decidable c] {x y : Blocks} (hx : c → g.Keeps x) (hy : ¬c → g.Keeps y) :
    g.Keeps (if c then x else y) := by
  split
  · exact hx ‹_›
  · exact hy ‹_›

theorem iteActs {g : Blocks} {c : Prop} [Decidable c] {x y : Acts} (hx : c → g.Keeps x.1) (hy : ¬c → g.Keeps y.1) :
    g.Keeps (if c then x else y).1 := by
  split
  · exact hx ‹_›
  · exact hy ‹_›

end Blocks.Keeps

open Blocks

/-! ## The Measurement Unit -/

theorem postFlag_keeps (c : Fin 16) (v n : Int) (was is : Bool) (g : Blocks) : g.Keeps (postFlag c v n was is g) :=
  Keeps.ite (fun _ => Keeps.refl g) (fun _ => Keeps.post g _ _ _ _)

theorem postFlags_keeps (c : Fin 16) (v : Int) (was is : Flags) (g : Blocks) : g.Keeps (postFlags c v was is g) :=
  (((postFlag_keeps ..).trans (postFlag_keeps ..)).trans (postFlag_keeps ..)).trans (postFlag_keeps ..)

theorem takeValue_keeps (t : Tables) (c : Fin 16) (v : Int) (g : Blocks) : g.Keeps (takeValue t c v g).1 :=
  (Keeps.setChannel g _ _).trans (postFlags_keeps ..)

theorem makeStale_keeps (c : Fin 16) (g : Blocks) : g.Keeps (makeStale c g).1 :=
  Keeps.iteActs (fun _ => Keeps.setChannel g _ _) (fun _ => Keeps.refl g)

theorem ageChannel_keeps (t : Tables) (c : Fin 12) (g : Blocks) : g.Keeps (ageChannel t c g).1 :=
  Keeps.iteActs (fun _ => Keeps.refl g) fun _ =>
    Keeps.iteActs (fun _ => (Keeps.setChannel g _ _).trans (makeStale_keeps _ _)) (fun _ => Keeps.setChannel g _ _)

/-! ## The Supply and Load Unit -/

theorem postShed_keeps (u v : SupplyUnit) : ∀ (is : List LoadId) (g : Blocks), g.Keeps (postShed u v is g)
  | [], g => Keeps.refl g
  | _ :: is, g => (Keeps.ite (fun _ => Keeps.post g _ _ _ _) (fun _ => Keeps.refl g)).trans (postShed_keeps u v is _)

theorem publish_keeps (e : LoadEvent) (a : Option LoadId) (g : Blocks) : g.Keeps (publish e a g).1 :=
  (Keeps.setSlu g _).trans (postShed_keeps ..)

theorem budgetChanged_keeps (t : Tables) (b : Branch) (old : Nat) (g : Blocks) : g.Keeps (budgetChanged t b old g).1 :=
  Keeps.iteActs (fun _ => publish_keeps ..) fun _ => Keeps.iteActs (fun _ => publish_keeps ..) (fun _ => Keeps.refl g)

theorem setSupplyLow_keeps (t : Tables) (low : Bool) (g : Blocks) : g.Keeps (setSupplyLow t low g).1 :=
  Keeps.iteActs (fun _ => Keeps.refl g) fun _ =>
    Keeps.andThen (Keeps.iteActs (fun _ => (Keeps.setSlu g _).trans (budgetChanged_keeps ..)) (fun _ => Keeps.setSlu g _))
      fun h => Keeps.iteActs (fun _ => budgetChanged_keeps ..) (fun _ => Keeps.refl h)

theorem trip_keeps (t : Tables) (now : Round) (b : Branch) (v : Int) (g : Blocks) : g.Keeps (trip t now b v g).1 :=
  (Keeps.setSlu g _).trans (Keeps.post _ _ _ _ _)

theorem becomeOn_keeps (t : Tables) (b : Branch) (g : Blocks) : g.Keeps (becomeOn t b g).1 :=
  (Keeps.setSlu g _).trans (Keeps.post _ _ _ _ _)

theorem takeCurrent_keeps (t : Tables) (now : Round) (b : Branch) (r : ChannelReport) (g : Blocks) : g.Keeps (takeCurrent t now b r g).1 :=
  Keeps.iteActs
    (fun _ => Keeps.iteActs (fun _ => Keeps.iteActs (fun _ => Keeps.setSlu g _) (fun _ => trip_keeps ..)) (fun _ => Keeps.setSlu g _))
    (fun _ => Keeps.setSlu g _)

theorem supplyReport_keeps (t : Tables) (now : Round) (r : ChannelReport) (g : Blocks) : g.Keeps (supplyReport t now r g).1 := by
  unfold supplyReport
  split
  · exact Keeps.iteActs (fun _ => takeCurrent_keeps ..) (fun _ => Keeps.refl g)
  · exact Keeps.iteActs (fun _ => setSupplyLow_keeps ..) (fun _ => Keeps.refl g)

theorem autoOnRound_keeps (t : Tables) (now : Round) (b : Branch) (g : Blocks) : g.Keeps (autoOnRound t now b g).1 :=
  Keeps.iteActs (fun _ => Keeps.iteActs (fun _ => (Keeps.setSlu g _).trans (becomeOn_keeps ..)) (fun _ => Keeps.setSlu g _))
    (fun _ => Keeps.refl g)

/-! ## The Drive Unit -/

theorem settlePending_keeps (t : Tables) (d : Fin 24) (g : Blocks) : g.Keeps (settlePending t d g) := Keeps.setDrive rfl id

theorem takeRow_keeps (d : Fin 24) (g : Blocks) : g.Keeps (takeRow d g) := Keeps.setDrive rfl id

theorem handOver_keeps (t : Tables) (d : Fin 24) (g : Blocks) : g.Keeps (handOver t d g).1 :=
  Keeps.change (publish_keeps ..) fun h =>
    Keeps.trans (h := h.setDrive d { h.drive d with handDue := false }) (Keeps.setDrive rfl id) (takeRow_keeps ..)

theorem tellZones_keeps (t : Tables) (d : Fin 24) (g : Blocks) : g.Keeps (tellZones t d g).1 :=
  Keeps.iteActs (fun _ => Keeps.setDrive rfl id) (fun _ => Keeps.refl g)

theorem runStages_keeps (t : Tables) (d : Fin 24) (seen : Option ChannelReport) (g : Blocks) : g.Keeps (runStages t d seen g) := by
  have a : g.Keeps (g.setDrive d { g.drive d with
      base := baseLevel t g d seen, wanted := wantedLevel t g d seen, sprayCapped := sprayLowers t g d seen,
      overMax := (g.drive d).overMax || maxLowers t g d seen, tripped := (g.drive d).tripped || tripFlag t g d seen }) :=
    Keeps.setDrive rfl fun h => by simp [h]
  have b := a.trans (Keeps.ite (c := (sprayLowers t g d seen && !(g.drive d).sprayCapped) = true)
    (fun _ => Keeps.post _ .sprayCapped d.val (levelToSpray t g d seen) (t.limits.get d).sprayCap) (fun _ => Keeps.refl _))
  have c := b.trans (Keeps.ite (c := (maxLowers t g d seen && !(g.drive d).overMax) = true)
    (fun _ => Keeps.post _ .overMax d.val (levelToMax t g d seen) (t.limits.get d).maxLevel) (fun _ => Keeps.refl _))
  unfold runStages
  split
  · exact c.trans (Keeps.ite (fun _ => Keeps.post _ _ _ _ _) (fun _ => Keeps.refl _))
  · exact c

theorem recompute_keeps (t : Tables) (d : Fin 24) (seen : Option ChannelReport) (g : Blocks) : g.Keeps (recompute t d seen g).1 :=
  (((runStages_keeps t d seen g).trans (Keeps.iteActs (fun _ => handOver_keeps ..) (fun _ => Keeps.refl _))).trans
    (settlePending_keeps ..)).trans (tellZones_keeps ..)

theorem ageDrive_keeps (t : Tables) (d : Fin 24) (g : Blocks) : g.Keeps (ageDrive t d g).1 := Keeps.setDrive rfl id

theorem driveSent_keeps (t : Tables) (d : Fin 24) (level : Nat) (g : Blocks) : g.Keeps (driveSent t d level g) :=
  Keeps.trans (h := g.setDrive d { g.drive d with lastSent := level, sentKnown := true, roundsSinceSend := 0 }) (Keeps.setDrive rfl id)
    (settlePending_keeps ..)

theorem drivesPowered_keeps (t : Tables) (b : Branch) (g : Blocks) : g.Keeps (drivesPowered t b g).1 :=
  Keeps.iteActs
    (fun _ => Keeps.foldl (f := fun h d => h.setDrive d { h.drive d with unpowered := false, handDue := true })
      (fun _ _ => Keeps.setDrive rfl id) _ _)
    (fun _ => Keeps.refl g)

/-! ## The Zone Unit -/

/-- A Zone Unit with the same MANUAL vetoes. -/
theorem applyZones_keeps {u : ZoneUnit} {g : Blocks} (h : ∀ z, (u.zone z).manual = (g.zone z).manual) : g.Keeps (applyZones u g).1 :=
  ⟨Upstream.Offered.refl _, rfl, rfl, rfl, h, fun _ => rfl, fun _ e => e⟩

theorem mapZones_manual {u : ZoneUnit} {f : Fin 32 → Zone → Zone} (hf : ∀ z x, (f z x).manual = x.manual) (z : Fin 32) :
    ((u.mapZones f).zone z).manual = (u.zone z).manual := by
  simp [ZoneUnit.mapZones, ZoneUnit.zone, hf]

theorem setRain_manual (t : Tables) (s : RainState) (n : Nat) (u : ZoneUnit) (z : Fin 32) :
    ((u.setRain t s n).zone z).manual = (u.zone z).manual :=
  mapZones_manual (u := u) (f := fun z x => { x with rain := decide (s ≠ .dry) && t.isLawn z }) (fun _ _ => rfl) z

theorem evaluateSpray_manual (u : ZoneUnit) (z : Fin 32) : (u.evaluateSpray.zone z).manual = (u.zone z).manual :=
  mapZones_manual (u := u) (f := fun z x => { x with spray := u.sprayed z }) (fun _ _ => rfl) z

theorem readRain_manual (t : Tables) (x : ChannelView) (u : ZoneUnit) (z : Fin 32) :
    ((u.readRain t x).zone z).manual = (u.zone z).manual := by
  have a : ((u.takeRain t x.live.highWarn).zone z).manual = (u.zone z).manual := by
    unfold ZoneUnit.takeRain
    repeat' split
    all_goals first | rfl | exact setRain_manual ..
  exact (mapZones_manual (f := fun y k => { k with rainNoData := decide (x.state ≠ .fresh) && t.isLawn y }) (fun _ _ => rfl) z).trans a

theorem readWet_manual (t : Tables) (c : Fin 16) (x : ChannelView) (u : ZoneUnit) (z : Fin 32) :
    ((u.readWet t c x).zone z).manual = (u.zone z).manual :=
  mapZones_manual (u := u) (fun y k => by split <;> rfl) z

theorem readWind_manual (x : ChannelView) (u : ZoneUnit) (z : Fin 32) : ((u.readWind x).zone z).manual = (u.zone z).manual := by
  unfold ZoneUnit.readWind
  split
  · rfl
  · exact evaluateSpray_manual ..

theorem ifNamed_manual {field : Option (Fin 16)} {c : Fin 16} {f : ZoneUnit → ZoneUnit} {z : Fin 32}
    (hf : ∀ u, ((f u).zone z).manual = (u.zone z).manual) (u : ZoneUnit) : ((u.ifNamed field c f).zone z).manual = (u.zone z).manual := by
  unfold ZoneUnit.ifNamed
  split
  · exact hf u
  · rfl

theorem read_manual (t : Tables) (c : Fin 16) (x : ChannelView) (u : ZoneUnit) (z : Fin 32) :
    ((u.read t c x).zone z).manual = (u.zone z).manual :=
  (ifNamed_manual (fun v => readWind_manual x v z) _).trans
    ((readWet_manual ..).trans (ifNamed_manual (fun v => readRain_manual t x v z) u))

theorem readAmbient_keeps (t : Tables) (low : Bool) (g : Blocks) : g.Keeps (readAmbient t low g).1 :=
  ⟨Upstream.Offered.refl _, rfl, rfl, rfl, fun _ => rfl, fun _ => rfl, fun _ e => e⟩

theorem zoneReport_keeps (t : Tables) (r : ChannelReport) (g : Blocks) : g.Keeps (zoneReport t r g).1 :=
  Keeps.andThen (applyZones_keeps fun _ => read_manual ..) fun h =>
    Keeps.iteActs (fun _ => readAmbient_keeps ..) (fun _ => Keeps.refl h)

theorem takeOverCap_keeps (d : Fin 24) (o : Bool) (y : ZoneSet) (g : Blocks) : g.Keeps (takeOverCap d o y g).1 :=
  applyZones_keeps fun z => (evaluateSpray_manual _ z).trans rfl

theorem lampSync_keeps (t : Tables) (d : Fin 24) (g : Blocks) : g.Keeps (lampSync t d g).1 :=
  Keeps.iteActs (fun _ => Keeps.refl g) fun _ => (Keeps.setDrive (by rfl) (by exact id)).trans (recompute_keeps ..)

theorem countRose_manual (dark : Bool) (x : Zone) : (x.countRose dark).manual = x.manual := by
  unfold Zone.countRose
  repeat' split
  all_goals rfl

theorem countEnded_manual (n : Nat) (x : Zone) : (x.countEnded n).manual = x.manual := by
  unfold Zone.countEnded
  repeat' split
  all_goals rfl

theorem pathCount_keeps (t : Tables) (z : Fin 32) (r : Bool) (g : Blocks) : g.Keeps (pathCount t z r g).1 := by
  unfold pathCount
  refine Keeps.iteActs (fun _ => Keeps.setZone ?_) (fun _ => Keeps.setZone rfl)
  repeat' split
  all_goals first | rfl | exact countRose_manual .. | exact countEnded_manual ..

theorem darkPath_keeps (t : Tables) (z : Fin 32) (g : Blocks) : g.Keeps (darkPath t z g).1 :=
  Keeps.iteActs (fun _ => Keeps.setZone rfl) (fun _ => Keeps.refl g)

theorem holdRound_keeps (t : Tables) (z : Fin 32) (g : Blocks) : g.Keeps (holdRound t z g).1 :=
  Keeps.iteActs (fun _ => Keeps.iteActs (fun _ => Keeps.setZone rfl) (fun _ => Keeps.setZone rfl)) (fun _ => Keeps.refl g)

theorem dryOffRound_keeps (t : Tables) (g : Blocks) : g.Keeps (dryOffRound t g).1 :=
  Keeps.iteActs
    (fun _ => Keeps.iteActs (fun _ => applyZones_keeps fun _ => setRain_manual ..)
      (fun _ => ⟨Upstream.Offered.refl _, rfl, rfl, rfl, fun _ => rfl, fun _ => rfl, fun _ e => e⟩))
    (fun _ => Keeps.refl g)

theorem assignZone_keeps (t : Tables) (m : Fin 4) (z : Fin 32) (g : Blocks) : g.Keeps (assignZone t m z g).1 := Keeps.setZone rfl

theorem releaseZone_keeps (t : Tables) (m : Fin 4) (z : Fin 32) (g : Blocks) : g.Keeps (releaseZone t m z g).1 :=
  Keeps.iteActs (fun _ => Keeps.setZone rfl) (fun _ => Keeps.refl g)

theorem setTransitZone_keeps (m : Fin 4) (z : Option (Fin 32)) (g : Blocks) : g.Keeps (setTransitZone m z g).1 :=
  Keeps.iteActs (fun _ => Keeps.refl g)
    (fun _ => ⟨Upstream.Offered.refl _, rfl, rfl, rfl, fun _ => rfl, fun _ => rfl, fun _ e => e⟩)

theorem takeStateReport_keeps (m : Fin 4) (s : MowerState) (g : Blocks) : g.Keeps (takeStateReport m s g).1 :=
  Keeps.iteActs (fun _ => Keeps.refl g) (fun _ => setTransitZone_keeps ..)

theorem takePosition_keeps (t : Tables) (m : Fin 4) (n : Nat) (g : Blocks) : g.Keeps (takePosition t m n g).1 := by
  unfold takePosition
  split
  · exact setTransitZone_keeps ..
  · exact Keeps.refl g

/-! ## The Branch Line Controllers -/

theorem enqueue_keeps (b : Branch) (f : Frame) (u : Bool) (o : Origin) (g : Blocks) : g.Keeps (enqueue b f u o g) := Keeps.setLine ..

theorem queueCommand_keeps (t : Tables) (m : Fin 4) (r : MowerRequest) (g : Blocks) : g.Keeps (queueCommand t m r g).1 := by
  unfold queueCommand
  dsimp only
  repeat' split
  all_goals first | exact Keeps.refl g | (dsimp only; apply enqueue_keeps)

theorem withdraw_keeps (b : Branch) (m : Fin 4) (c : MowerCommand) (g : Blocks) : g.Keeps (withdraw b m c g).1 := by
  unfold withdraw
  dsimp only
  split
  · exact Keeps.setLine ..
  · exact Keeps.refl g

theorem missCue_keeps (n : Nat) (c : Fin 64) (g : Blocks) : g.Keeps (missCue n c g) :=
  (Keeps.setCueRun g _ _).trans (Keeps.post _ _ _ _ _)

theorem abandonFrame_keeps (b : Branch) (g : Blocks) : g.Keeps (abandonFrame b g) := by
  unfold abandonFrame
  dsimp only
  repeat' split
  all_goals first | exact Keeps.refl g | exact Keeps.setLine .. | exact (Keeps.setLine ..).trans (missCue_keeps ..)

theorem lineOff_keeps (t : Tables) (b : Branch) (g : Blocks) : g.Keeps (lineOff t b g).1 := (abandonFrame_keeps b g).trans (Keeps.setLine ..)

/-! ## The Mower Dispatcher -/

theorem updateMower_keeps (m : Fin 4) (f : Mower → Mower) (g : Blocks) : g.Keeps (updateMower m f g) := Keeps.setMower ..

theorem enter_keeps (m : Fin 4) (s : MowerState) (g : Blocks) : g.Keeps (enter m s g).1 :=
  Keeps.iteActs (fun _ => Keeps.refl g) (fun _ => (updateMower_keeps m _ g).trans (Keeps.post _ _ _ _ _))

theorem setDaylight_keeps (t : Tables) (day : Bool) (g : Blocks) : g.Keeps (setDaylight t day g).1 :=
  ⟨Upstream.Offered.refl _, rfl, rfl, rfl, fun _ => rfl, fun _ => rfl, fun _ e => e⟩

theorem mowerReport_keeps (t : Tables) (r : ChannelReport) (g : Blocks) : g.Keeps (mowerReport t r g).1 :=
  Keeps.iteActs (fun _ => setDaylight_keeps ..) (fun _ => Keeps.refl g)

theorem withdrawWaiting_keeps (t : Tables) (m : Fin 4) (c : MowerCommand) :
    ∀ (n : Nat) (g : Blocks), g.Keeps (withdrawWaiting t m c n g)
  | 0, g => Keeps.refl g
  | n + 1, g => by
    unfold withdrawWaiting
    dsimp only
    split
    · exact ((withdraw_keeps ..).trans (updateMower_keeps m _ _)).trans (withdrawWaiting_keeps t m c n _)
    · exact withdraw_keeps ..
    · exact withdraw_keeps ..

theorem withdrawAll_keeps (t : Tables) (m : Fin 4) (c : MowerCommand) (g : Blocks) : g.Keeps (withdrawAll t m c g) := withdrawWaiting_keeps ..

theorem withdrawGo_keeps (t : Tables) (m : Fin 4) (g : Blocks) : g.Keeps (withdrawGo t m g).1 := withdrawAll_keeps ..

theorem queueHeld_keeps (t : Tables) (m : Fin 4) (r : MowerRequest) (g : Blocks) : g.Keeps (queueHeld t m r g).1 :=
  Keeps.ite (fun _ => (queueCommand_keeps ..).trans (updateMower_keeps ..)) (fun _ => queueCommand_keeps ..)

theorem queueCharge_keeps (t : Tables) (m : Fin 4) (on : Bool) (g : Blocks) : g.Keeps (queueCharge t m on g).1 :=
  (withdrawAll_keeps ..).trans (queueHeld_keeps ..)

theorem queueChargeOff_keeps (t : Tables) (m : Fin 4) (g : Blocks) : g.Keeps (queueChargeOff t m g) := queueCharge_keeps ..

theorem queueHome_keeps (t : Tables) (m : Fin 4) (g : Blocks) : g.Keeps (queueHome t m g) := queueHeld_keeps ..

theorem sendHome_keeps (t : Tables) (m : Fin 4) (g : Blocks) : g.Keeps (sendHome t m g) :=
  Keeps.ite (fun _ => Keeps.refl g) fun _ =>
    Keeps.ite (fun _ => updateMower_keeps ..) (fun _ => (updateMower_keeps ..).trans (queueHome_keeps ..))

theorem releaseCharge_keeps (t : Tables) (m : Fin 4) (g : Blocks) : g.Keeps (releaseCharge t m g).1 :=
  Keeps.change (publish_keeps ..) (fun _ => updateMower_keeps ..)

theorem startRetry_keeps (m : Fin 4) (g : Blocks) : g.Keeps (startRetry m g) := updateMower_keeps ..

theorem leaveDock_keeps (t : Tables) (m : Fin 4) (off : Bool) (g : Blocks) : g.Keeps (leaveDock t m off g).1 :=
  Keeps.iteActs
    (fun _ => Keeps.change (releaseCharge_keeps ..) fun h => Keeps.ite (fun _ => queueChargeOff_keeps ..) (fun _ => Keeps.refl h))
    (fun _ => Keeps.iteActs (fun _ => releaseCharge_keeps ..) (fun _ => Keeps.refl g))

theorem endCharging_keeps (t : Tables) (m : Fin 4) (off retry : Bool) (g : Blocks) : g.Keeps (endCharging t m off retry g).1 :=
  Keeps.change (Keeps.andThen (leaveDock_keeps ..) (fun _ => enter_keeps ..)) fun h =>
    Keeps.ite (fun _ => startRetry_keeps ..) (fun _ => Keeps.refl h)

theorem beginCharging_keeps (t : Tables) (m : Fin 4) (g : Blocks) : g.Keeps (beginCharging t m g).1 :=
  Keeps.andThen (enter_keeps ..) fun _ =>
    Keeps.iteActs (fun _ => queueCharge_keeps ..) (fun _ => (queueCharge_keeps ..).trans (endCharging_keeps ..))

theorem askCharge_keeps (t : Tables) (m : Fin 4) (g : Blocks) : g.Keeps (askCharge t m g).1 :=
  Keeps.iteActs
    (fun _ => Keeps.iteActs (fun _ => Keeps.andThen (publish_keeps ..) (fun _ => beginCharging_keeps ..))
      (fun _ => Keeps.change (publish_keeps ..) (fun _ => startRetry_keeps ..)))
    (fun _ => Keeps.refl g)

theorem takeChargePush_keeps (t : Tables) (m : Fin 4) (p : ChargePush) (g : Blocks) : g.Keeps (takeChargePush t m p g).1 := by
  cases p
  · exact Keeps.iteActs (fun _ => ((queueChargeOff_keeps ..).trans (updateMower_keeps ..)).trans (enter_keeps ..)) (fun _ => Keeps.refl g)
  · exact Keeps.iteActs (fun _ => (updateMower_keeps ..).trans (beginCharging_keeps ..)) (fun _ => Keeps.refl g)
  · exact Keeps.iteActs (fun _ => (updateMower_keeps m _ g).trans (enter_keeps ..)) (fun _ => Keeps.refl g)

theorem endRecord_keeps (t : Tables) (m : Fin 4) (g : Blocks) : g.Keeps (endRecord t m g).1 :=
  Keeps.change (Keeps.andThen (releaseCharge_keeps ..) (fun _ => enter_keeps ..)) (fun _ => updateMower_keeps ..)

theorem afterRelease_keeps (t : Tables) (m : Fin 4) (k : AfterRelease) (g : Blocks) : g.Keeps (afterRelease t m k g).1 := by
  have a := updateMower_keeps m (fun x => { x with assigned := none }) g
  cases k
  · exact Keeps.iteActs (fun _ => a) (fun _ => (a.trans (updateMower_keeps m (fun x => { x with stint := 0 }) _)).trans (enter_keeps ..))
  · exact Keeps.iteActs (fun _ => a.trans ((enter_keeps ..).trans (startRetry_keeps ..))) (fun _ => a)
  · exact a
  · exact Keeps.iteActs (fun _ => a.trans (enter_keeps ..)) (fun _ => a)
  · exact a.trans (endRecord_keeps ..)

theorem releaseThen_keeps (t : Tables) (m : Fin 4) (k : AfterRelease) (g : Blocks) : g.Keeps (releaseThen t m k g).1 := by
  unfold releaseThen
  split
  · exact afterRelease_keeps ..
  · exact releaseZone_keeps ..

theorem arrive_keeps (t : Tables) (m : Fin 4) (g : Blocks) : g.Keeps (arrive t m g).1 := releaseThen_keeps ..

theorem comeHome_keeps (t : Tables) (m : Fin 4) (g : Blocks) : g.Keeps (comeHome t m g).1 :=
  Keeps.change (Keeps.andThen (leaveDock_keeps ..) (fun _ => enter_keeps ..)) (fun _ => sendHome_keeps ..)

theorem halt_keeps (t : Tables) (m : Fin 4) (g : Blocks) : g.Keeps (halt t m g).1 :=
  Keeps.andThen (p := (leaveDock t m true g).change _) (Keeps.change (leaveDock_keeps ..) (fun _ => withdrawGo_keeps ..))
    (fun _ => enter_keeps ..)

theorem dockedAnswer_keeps (t : Tables) (m : Fin 4) (w : Bool) (g : Blocks) : g.Keeps (dockedAnswer t m w g).1 := by
  unfold dockedAnswer
  exact Keeps.iteActs (fun _ => Keeps.refl g) fun _ => Keeps.iteActs (fun _ => endCharging_keeps ..) (fun _ => leaveDock_keeps ..)

theorem beginMowing_keeps (m : Fin 4) (g : Blocks) : g.Keeps (beginMowing m g).1 := by
  unfold beginMowing
  exact (updateMower_keeps m _ g).trans (enter_keeps m _ _)

theorem driveOrCut_keeps (t : Tables) (m : Fin 4) (x : Mower) (g : Blocks) : g.Keeps (moveByMode.driveOrCut t m x g).1 := by
  unfold moveByMode.driveOrCut
  repeat' split
  all_goals
    try simp only [done_fst]
    with_reducible first | exact Keeps.refl g | exact comeHome_keeps t m g | exact beginMowing_keeps m g

theorem moveByMode_keeps (t : Tables) (m : Fin 4) (w : Bool) (g : Blocks) : g.Keeps (moveByMode t m w g).1 := by
  unfold moveByMode
  dsimp only
  repeat' split
  all_goals
    try simp only [done_fst]
    with_reducible first
      | exact Keeps.refl g | exact dockedAnswer_keeps t m w g | exact arrive_keeps t m g | exact comeHome_keeps t m g
      | exact halt_keeps t m g | exact driveOrCut_keeps t m _ g

theorem returnOnBattery_keeps (t : Tables) (m : Fin 4) (g : Blocks) : g.Keeps (returnOnBattery t m g) :=
  Keeps.ite (fun _ => sendHome_keeps ..) (fun _ => Keeps.refl g)

theorem releaseBehind_keeps (t : Tables) (m : Fin 4) (g : Blocks) : g.Keeps (releaseBehind t m g).1 :=
  Keeps.iteActs (fun _ => releaseThen_keeps ..) (fun _ => Keeps.refl g)

theorem takeMowerAnswer_keeps (t : Tables) (m : Fin 4) (k : MowerMode) (z b : Nat) (g : Blocks) : g.Keeps (takeMowerAnswer t m k z b g).1 := by
  unfold takeMowerAnswer
  have a := (updateMower_keeps m (fun x => { x with lastMode := k, lastZone := z, lastBattery := b }) g).trans
    (moveByMode_keeps t m (ready t m g) _)
  exact Keeps.iteActs (fun _ => a) (fun _ => a.trans ((returnOnBattery_keeps ..).trans (releaseBehind_keeps ..)))

theorem attempt_keeps (t : Tables) (m : Fin 4) (g : Blocks) : g.Keeps (attempt t m g).1 := by
  unfold attempt
  split
  · split
    · rename_i i _ _
      exact Keeps.trans (h := { g with mowers := { g.mowers with pointer := (i + 1) % t.rotationLength } })
        ⟨Upstream.Offered.refl _, rfl, rfl, rfl, fun _ => rfl, fun _ => rfl, fun _ e => e⟩ (assignZone_keeps t m _ _)
    · exact (Keeps.post g _ _ _ _).trans (startRetry_keeps ..)
  · exact Keeps.refl g

theorem dropDispatch_keeps (t : Tables) (m : Fin 4) (g : Blocks) : g.Keeps (dropDispatch t m g).1 := releaseThen_keeps ..

theorem takeAssigned_keeps (t : Tables) (m : Fin 4) (z : Fin 32) (g : Blocks) : g.Keeps (takeAssigned t m z g).1 := by
  unfold takeAssigned
  simp only [Acts.andThen_fst]
  refine Keeps.trans ((leaveDock_keeps t m true g).trans ((updateMower_keeps m (fun x => { x with
    assigned := some z, stintSent := (t.zones.get z).stint, returnReasons := [] }) _).trans (enter_keeps m .assigned _))) ?_
  refine Keeps.iteActs (fun _ => ?_) (fun _ => ?_)
  · simp only [done_fst]
    exact queueHeld_keeps ..
  · exact (queueHeld_keeps ..).trans (dropDispatch_keeps ..)

theorem withdrawDispatch_keeps (t : Tables) (m : Fin 4) (r : ReturnReason) (g : Blocks) : g.Keeps (withdrawDispatch t m r g).1 := by
  unfold withdrawDispatch
  dsimp only
  split
  · simp only [done_fst]
    exact (withdrawGo_keeps t m g).trans (updateMower_keeps m _ _)
  · exact (withdrawGo_keeps t m g).trans (dropDispatch_keeps ..)

theorem takeVetoArrival_keeps (t : Tables) (z : Fin 32) (v : Veto) (m : Fin 4) (g : Blocks) : g.Keeps (takeVetoArrival t z v m g).1 := by
  unfold takeVetoArrival
  dsimp only
  repeat' split
  all_goals first | exact Keeps.refl g | exact withdrawDispatch_keeps .. | exact sendHome_keeps ..

theorem goOutcome_keeps (t : Tables) (m : Fin 4) (o : CommandOutcome) (g : Blocks) : g.Keeps (goOutcome t m o g).1 := by
  unfold goOutcome
  dsimp only
  split
  · split
    · simp only [Acts.change_fst]
      exact ((updateMower_keeps m _ g).trans (enter_keeps m _ _)).trans
        (Keeps.ite (fun _ => sendHome_keeps ..) (fun _ => Keeps.refl _))
    · exact (updateMower_keeps m _ g).trans (dropDispatch_keeps ..)
  · simp only [done_fst]
    exact updateMower_keeps m _ g

theorem homeOutcome_keeps (t : Tables) (m : Fin 4) (o : CommandOutcome) (g : Blocks) : g.Keeps (homeOutcome t m o g).1 := by
  unfold homeOutcome
  repeat' split
  all_goals
    try simp only [done_fst]
    with_reducible first
      | exact Keeps.refl g | exact updateMower_keeps m _ g | exact (updateMower_keeps m _ g).trans (enter_keeps m _ _)

theorem chargeOutcome_keeps (t : Tables) (m : Fin 4) (on : Bool) (o : CommandOutcome) (g : Blocks) :
    g.Keeps (chargeOutcome t m on o g).1 := by
  unfold chargeOutcome
  repeat' split
  all_goals first | exact Keeps.refl g | exact endCharging_keeps ..

/-- An outcome whose entry is not held, or was held before the record was disabled, clears its mark alone (R156, R170). -/
theorem takeOutcome_discards {t : Tables} {m : Fin 4} {k : CommandId} {g : Blocks} (o : CommandOutcome) (h : (g.mower m).owns k = false) :
    takeOutcome t m k o g = done (updateMower m (Mower.forget k) g) := by
  simp [takeOutcome, h]

theorem takeOutcome_keeps (t : Tables) (m : Fin 4) (k : CommandId) (o : CommandOutcome) (g : Blocks) :
    g.Keeps (takeOutcome t m k o g).1 := by
  have a := updateMower_keeps m (Mower.forget k) g
  unfold takeOutcome
  dsimp only
  repeat' split
  all_goals first
    | exact a.trans (goOutcome_keeps ..) | exact a.trans (homeOutcome_keeps ..) | exact a.trans (chargeOutcome_keeps ..) | exact a

theorem homeRound_keeps (t : Tables) (m : Fin 4) (g : Blocks) : g.Keeps (homeRound t m g).1 :=
  Keeps.iteActs (fun _ => queueHome_keeps ..) (fun _ => Keeps.refl g)

theorem stintRound_keeps (t : Tables) (m : Fin 4) (g : Blocks) : g.Keeps (stintRound t m g).1 := by
  unfold stintRound
  dsimp only
  split
  · simp only [done_fst]
    split
    · exact (updateMower_keeps m _ g).trans (sendHome_keeps ..)
    · exact updateMower_keeps m _ g
  · exact Keeps.refl g

theorem retryRound_keeps (m : Fin 4) (g : Blocks) : g.Keeps (retryRound m g).1 := by
  unfold retryRound
  dsimp only
  split
  · dsimp only
    exact updateMower_keeps m _ g
  · exact Keeps.refl g

theorem mowersPowered_keeps (t : Tables) (b : Branch) (g : Blocks) : g.Keeps (mowersPowered t b g).1 :=
  Keeps.foldl (fun m h => updateMower_keeps m _ h) _ g

/-- What a mower node's absence does to a mower that is out or ASSIGNED (R168). -/
theorem mowerNodeAbsent_lost {t : Tables} {m : Fin 4} {g : Blocks}
    (h : (g.mower m).state = .assigned ∨ (g.mower m).state = .outbound ∨ (g.mower m).state = .mowing ∨ (g.mower m).state = .inbound ∨
      (g.mower m).state = .halted) : mowerNodeAbsent t m g = enter m .lost (withdrawGo t m g).1 := by
  unfold mowerNodeAbsent
  obtain h | h | h | h | h := h <;> rw [h]

theorem mowerNodeAbsent_keeps (t : Tables) (m : Fin 4) (g : Blocks) : g.Keeps (mowerNodeAbsent t m g).1 := by
  unfold mowerNodeAbsent
  split
  all_goals
    try simp only [done_fst, Acts.andThen_fst]
    with_reducible first
      | exact Keeps.refl g | exact enter_keeps m _ g | exact (withdrawGo_keeps t m g).trans (enter_keeps m _ _)
      | exact (leaveDock_keeps t m _ g).trans (enter_keeps m _ _)

theorem nodeLost_keeps (t : Tables) (b : Branch) (node : Byte) (g : Blocks) : g.Keeps (nodeLost t b node g).1 :=
  Keeps.actAll (fun _ h => Keeps.iteActs
    (fun _ => Keeps.iteActs (fun _ => mowerNodeAbsent_keeps ..)
      (fun _ => Keeps.iteActs (fun _ => Keeps.iteActs (fun _ => endCharging_keeps ..) (fun _ => Keeps.refl h)) (fun _ => Keeps.refl h)))
    (fun _ => Keeps.refl h)) _ g

theorem recallMower_keeps (t : Tables) (m : Fin 4) (g : Blocks) : g.Keeps (recallMower t m g).1 := by
  unfold recallMower
  split <;> first | exact Keeps.refl g | exact withdrawDispatch_keeps .. | exact sendHome_keeps ..

theorem endExchange_keeps (b : Branch) (g : Blocks) : g.Keeps (endExchange b g) := by
  unfold endExchange dropExchanged
  repeat' split
  all_goals first | exact Keeps.refl g | exact Keeps.setLine .. | exact (Keeps.setLine ..).trans (Keeps.setLine ..)

/-! ## The Frame Router -/

theorem noteForwarded_keeps (t : Tables) (now : Round) (b : Branch) (f : Frame) (g : Blocks) : g.Keeps (noteForwarded t now b f g) := by
  have a : g.Keeps ((valuesFor t b f.source (frameValues f)).foldl
      (fun h x => h.setChannel x.1 { h.channel x.1 with lastForwarded := some x.2 }) g) := Keeps.foldl (fun _ _ => Keeps.setChannel ..) _ _
  unfold noteForwarded
  dsimp only
  split
  · exact a.trans (Keeps.same rfl rfl rfl rfl rfl)
  · exact a

theorem forwardAnswer_keeps (t : Tables) (now : Round) (b : Branch) (k : AnswerMark) (f : Frame) (g : Blocks) :
    g.Keeps (forwardAnswer t now b k f g).1 :=
  Keeps.iteActs
    (fun _ => Keeps.ite (fun _ => (Keeps.offer g _).trans (noteForwarded_keeps ..)) (fun _ => Keeps.offer g _)) (fun _ => Keeps.refl g)

/-! ## Every event, and every run of events -/

theorem handle_keeps (t : Tables) (now : Round) (e : Task) (g : Blocks) : g.Keeps (handle t now e g).1 := by
  cases e with
  | report r => exact Keeps.refl g
  | consume k r =>
    cases k
    · exact Keeps.refl g
    · exact zoneReport_keeps ..
    · exact mowerReport_keeps ..
    · exact supplyReport_keeps ..
  | newValue c v => exact takeValue_keeps ..
  | sample c v => exact takeValue_keeps ..
  | ageChannel c => exact ageChannel_keeps ..
  | goStale c => exact makeStale_keeps ..
  | channelsOff b => exact Keeps.refl g
  | recompute d seen => exact recompute_keeps ..
  | pushDrive d => exact (takeRow_keeps ..).trans (recompute_keeps ..)
  | showWrite d l =>
    exact Keeps.iteActs (fun _ => Keeps.refl g) (fun _ => (Keeps.setDrive (by rfl) (by exact id)).trans (recompute_keeps ..))
  | ageDrive d => exact ageDrive_keeps ..
  | drivesOff b => exact Keeps.refl g
  | unpower d =>
    exact Keeps.iteActs (fun _ => Keeps.refl g) (fun _ => (Keeps.setDrive (by rfl) (by exact id)).trans (recompute_keeps ..))
  | drivesOn b => exact drivesPowered_keeps ..
  | autoOn b => exact autoOnRound_keeps ..
  | pushCharge m p => exact takeChargePush_keeps ..
  | overCap d o y => exact takeOverCap_keeps ..
  | lampSync d => exact lampSync_keeps ..
  | pathCount z r => exact pathCount_keeps ..
  | darkPath z => exact darkPath_keeps ..
  | dryOffRound => exact dryOffRound_keeps ..
  | holdRound z => exact holdRound_keeps ..
  | stateReport m s => exact takeStateReport_keeps ..
  | position m z => exact takePosition_keeps ..
  | vetoArrival z v m => exact takeVetoArrival_keeps ..
  | attempt m => exact attempt_keeps ..
  | dispatch m z => exact takeAssigned_keeps ..
  | released m k => exact afterRelease_keeps ..
  | recallOne m => exact recallMower_keeps ..
  | ask m => exact askCharge_keeps ..
  | outcome m k o => exact takeOutcome_keeps ..
  | mowerAnswer m k z b => exact takeMowerAnswer_keeps ..
  | mowersOn b => exact mowersPowered_keeps ..
  | homeRound m => exact homeRound_keeps ..
  | stintRound m => exact stintRound_keeps ..
  | retryRound m => exact retryRound_keeps ..
  | exchangeEnd b => exact endExchange_keeps ..
  | nodeLost b n => exact nodeLost_keeps ..
  | presence b n p => exact Keeps.refl g
  | unpolled b n => exact Keeps.refl g
  | answer b k f => exact Keeps.refl g
  | forward b k f => exact forwardAnswer_keeps ..
  | lineOff b => exact lineOff_keeps ..

theorem settleActs_keeps_blocks (t : Tables) (now : Round) (p : Acts) : p.1.Keeps (settleActs t now p) :=
  settleActs_keeps t now (fun h => p.1.Keeps h) (fun e _ h => h.trans (handle_keeps t now e _))
    (fun _ _ h => h.trans (Keeps.same rfl rfl rfl rfl rfl)) p (Keeps.refl _)

/-- What a block's act keeps, the act with all that follows from it keeps. -/
theorem actOn_keeps {f : Blocks → Acts} {s : State} (h : s.blocks.Keeps (f s.blocks).1) : s.blocks.Keeps (actOn f s).blocks :=
  h.trans (settleActs_keeps_blocks ..)

end Sys2Proof.Machine
end

