-- ==== Sys2Proof/Laws/Slots.lean ====
section
/-! SUPPORT. What the operations of a slot, of an exchange and of a release can do, each said once. -/

namespace Sys2Proof.Machine

/-! ## The slot index -/

theorem Clock.slotsEnd_eq (n : Nat) (c : Clock) (h : c.slot.val + n < 50) :
    c.slotsEnd n = { c with slot := ⟨c.slot.val + n, h⟩ } := by
  induction n generalizing c with
  | zero => rfl
  | succ n ih =>
    have h1 : c.slot.val + 1 < 50 := by omega
    have e : c.slotEnds = { c with slot := ⟨c.slot.val + 1, h1⟩ } := by simp [Clock.slotEnds, h1]
    rw [Clock.slotsEnd, e, ih { c with slot := ⟨c.slot.val + 1, h1⟩ } (show c.slot.val + 1 + n < 50 by omega)]
    simp [Nat.add_assoc, Nat.add_comm 1 n]

/-- The slot index comes to a slot that is not past. -/
theorem Clock.advanceTo_eq {slot : Fin 50} {c : Clock} (h : c.slot ≤ slot) : c.advanceTo slot = { c with slot := slot } := by
  have h' : c.slot.val ≤ slot.val := h
  rw [Clock.advanceTo, Clock.slotsEnd_eq _ _ (by omega)]
  simp [Nat.add_sub_cancel' h']

/-- A slot that is past leaves the slot index where it stands. -/
theorem Clock.advanceTo_past {slot : Fin 50} {c : Clock} (h : slot ≤ c.slot) : c.advanceTo slot = c := by
  have h' : slot.val ≤ c.slot.val := h
  rw [Clock.advanceTo, Nat.sub_eq_zero_of_le h']
  rfl

theorem atSlot_eq {slot : Fin 50} {s : State} (h : s.clock.slot ≤ slot) : atSlot slot s = inSlot s slot := by
  simp [atSlot, inSlot, Clock.advanceTo_eq h]

theorem atSlot_past {slot : Fin 50} {s : State} (h : slot ≤ s.clock.slot) : atSlot slot s = s := by
  simp [atSlot, Clock.advanceTo_past h]

/-- A row of a slot start, while the part runs: in its slot, or not at all. -/
theorem onSlot_cases (slot : Fin 50) (f : State → State) {s : State} (h : s.life = .running) :
    (s.clock.slot ≤ slot ∧ onSlot slot f s = .next (f (inSlot s slot))) ∨ (slot < s.clock.slot ∧ onSlot slot f s = .next s) := by
  by_cases k : s.clock.slot ≤ slot
  · exact .inl ⟨k, by simp [onSlot, whenRunning, h, k, atSlot_eq k]⟩
  · exact .inr ⟨not_le.mp k, by simp [onSlot, whenRunning, h, k]⟩

/-- An answer slot judged right after the slot its frame was sent in brings the slot index to itself. -/
theorem atAnswerSlot_eq {b : Branch} {s : State} {x : Exchange} (hx : (s.blocks.line b).exchange = some x)
    (hs : (s.blocks.line b).sending = none) :
    atAnswerSlot b s = if s.clock.slot.val + 1 = x.answerSlot.val then inSlot s x.answerSlot else s := by
  unfold atAnswerSlot
  rw [hx, hs]
  dsimp only
  split
  · rename_i h
    exact atSlot_eq (show s.clock.slot.val ≤ x.answerSlot.val by omega)
  · rfl

/-! ## Exchanges -/

/-- What the end of an exchange does: its record is cleared, and an entry of the send queue leaves it (R29). -/
theorem endExchange_cases (b : Branch) (g : Blocks) :
    ((g.line b).exchange = none ∧ endExchange b g = g) ∨
      ∃ x, (g.line b).exchange = some x ∧
        ((∃ n o, x.origin = .entry n o ∧ endExchange b g = dropEntry b n (g.setLine b { g.line b with exchange := none })) ∨
          ((∀ n o, x.origin ≠ .entry n o) ∧ endExchange b g = g.setLine b { g.line b with exchange := none })) := by
  unfold endExchange
  cases h : (g.line b).exchange with
  | none => exact .inl ⟨rfl, rfl⟩
  | some x =>
    refine .inr ⟨x, rfl, ?_⟩
    dsimp only
    unfold dropExchanged
    cases hx : x.origin with
    | entry n o => exact .inl ⟨n, o, rfl, rfl⟩
    | pollTable => exact .inr ⟨by simp, rfl⟩
    | pollNow => exact .inr ⟨by simp, rfl⟩

/-- A judged answer slot: without an exchange whose frame has ended, nothing; else presence is updated, and the outcome, the answer and the
end of the exchange are handed on in this order (R29, R33). -/
theorem judgeAnswerSlot_cases (t : Tables) (b : Branch) (heard : List RxByte) (g : Blocks) :
    (((g.line b).exchange = none ∨ (g.line b).sending.isSome = true) ∧ judgeAnswerSlot t b heard g = done g) ∨
      ∃ x, (g.line b).exchange = some x ∧ (g.line b).sending = none ∧
        judgeAnswerSlot t b heard g =
          (updatePresence t b x.dest (judge x (hearSlot heard)) (g.setLine b { g.line b with answeredIn := some x.answerSlot })).hand
            (outcomeTasks b x.origin (judge x (hearSlot heard)).outcome ++ answerTasks b x.origin (judge x (hearSlot heard)) ++
              [.exchangeEnd b]) := by
  unfold judgeAnswerSlot
  dsimp only
  split
  · rename_i h
    exact .inl ⟨.inl h, rfl⟩
  · rename_i x h
    split
    · rename_i k
      exact .inl ⟨.inr k, rfl⟩
    · rename_i k
      exact .inr ⟨x, h, by simpa using k, rfl⟩

/-! ## Releases of a zone -/

/-- A release: of a mower without an assigned zone the dispatcher goes on at once; else what it goes on with is the last event handed on,
after the recomputations of the jets where the mower was the zone's occupant (R146). -/
theorem releaseThen_cases (t : Tables) (m : Fin 4) (next : AfterRelease) (g : Blocks) :
    ((g.mower m).assigned = none ∧ releaseThen t m next g = afterRelease t m next g) ∨
      ∃ z, (g.mower m).assigned = some z ∧
        (((g.zone z).occupiedBy m = true ∧ releaseThen t m next g =
            (g.setZone z { g.zone z with occupants := (g.zone z).occupants &&& ~~~mowerBit m }, jetTasks t z ++ [.released m next])) ∨
          ((g.zone z).occupiedBy m = false ∧ releaseThen t m next g = (g, [.released m next]))) := by
  unfold releaseThen
  cases h : (g.mower m).assigned with
  | none => exact .inl ⟨rfl, rfl⟩
  | some z =>
    refine .inr ⟨z, rfl, ?_⟩
    cases k : (g.zone z).occupiedBy m with
    | true => exact .inl ⟨rfl, by simp [releaseZone, k, Acts.hand]⟩
    | false => exact .inr ⟨rfl, by simp [releaseZone, k, Acts.hand, done]⟩

end Sys2Proof.Machine
end

