-- ==== Sys2Proof/Tests/Slice0.lean ====
section
/-! SUPPORT. Checks of single steps against the manual's worked sequences and hand calculation from its rules, the refusals of
`Instr.wellFormed`, and, for each statement with hypotheses, a state that meets them. -/

namespace Sys2Proof.Tests

open Sys2Proof Sys2Proof.Machine

set_option maxRecDepth 100000
set_option Elab.async false

/-! ## Helpers -/

/-- The state a command leaves. -/
def after (c : Instr) (s : State) : State :=
  match exec c s with
  | .next t => t
  | .fault _ => s
  | .refused _ => s

/-- A MANAGE request with tag 5 from the head unit. -/
def req (code table first count : Nat) (data : List Byte) : Request := ⟨126, 5, code, table, first, count, data, false⟩

/-- The part holding a request, with its reply's place claimed. -/
def asked (r : Request) (s : State) : State :=
  { s with agent := { s.agent with request := some r }, blocks := { s.blocks with up := { s.blocks.up with claimed := 1 } } }

/-- The result code of the last frame of the upstream queue. -/
def lastResult (s : State) : Option Byte := (s.blocks.up.queue.getLast?).bind fun x => x.frame.payload.head?

/-- The payloads of the upstream queue. -/
def payloads (s : State) : List (List Byte) := s.blocks.up.queue.map fun x => x.frame.payload

/-- The part after reset with its upstream queue empty. -/
def bare : State := { State.reset with blocks := { State.reset.blocks with up := ⟨[], 0, 0⟩ } }

/-- A branch's supply record. -/
def supplied (b : Branch) (x : Supply) (s : State) : State := withSupply s b x

/-- A branch ON with a budget. -/
def onWith (b : Branch) (budget : Nat) (s : State) : State :=
  withSupply { s with tables := { s.tables with supply := s.tables.supply.set b ⟨budget, false⟩ } } b ⟨.on, ⟨40, false⟩, false, 0⟩

/-- A drive bound, with its mode and limits, powered, its row and levels at a granted level. -/
def driven (d : Fin 24) (e : DriveBind) (mode : DriveMode) (limits : DriveLimit) (cls : LoadClass) (level : Nat) (s : State) : State :=
  { s with
    tables := { s.tables with
      binds := s.tables.binds.set d e
      shapes := s.tables.shapes.set d { s.tables.shapes.get d with mode := mode }
      limits := s.tables.limits.set d limits }
    blocks := { s.blocks with
      drives := s.blocks.drives.set d { Drive.startUp false with
        wanted := level, granted := level, showLevel := level, manual := level, base := level, lastSent := level, sentKnown := true }
      slu := s.blocks.slu.setRow (.drive d) ⟨cls, level, level, levelCurrent limits.rated level, false, false⟩ } }

/-- A drive's limits that leave its levels alone. -/
def plainLimits (rated floor : Nat) : DriveLimit := ⟨255, floor, 0, rated, 5, 0, 0, 255, 0⟩

/-- Chapter 6's first worked case, the pump granted: lamp 7, jet 2, pump 3 and mower 1's charge on Branch A, budget 1200. -/
def loaded : State :=
  let s := driven 7 ⟨.branchA, 20, 1, .lamp⟩ .manual (plainLimits 400 64) .ambient 200
    (driven 2 ⟨.branchA, 30, 0, .jet⟩ .inShow (plainLimits 600 0) .showLoad 191
      (driven 3 ⟨.branchA, 16, 0, .pump⟩ .manual (plainLimits 420 80) .water 171 (onWith .branchA 1200 bare)))
  { s with
    tables := { s.tables with mowers := s.tables.mowers.set 1 ⟨true, .branchA, 23, 24, 150, 90, 20⟩ }
    blocks := { s.blocks with
      slu := s.blocks.slu.setRow (.charge 1) ⟨.charge, 1, 1, 150, false, false⟩
      mowers := { s.blocks.mowers with mowers := s.blocks.mowers.mowers.set 1 { Mower.startUp with state := .charging } } } }

/-- Channel 12 as chapter 6's trip case sets it, at its third high sample. -/
def overloaded : State :=
  let s := { loaded with tables := { loaded.tables with
    channels := loaded.tables.channels.set 12 { loaded.tables.channels.get 12 with highAlarm := 1250, highWarn := 1100, hysteresis := 20 } } }
  withSupply { s with
    clock := ⟨2204, 0⟩
    blocks := s.blocks.setChannel 12 ⟨1315, .fresh, ⟨false, false, true, true⟩, ⟨false, false, true, true⟩, 0, none⟩ }
    .branchA ⟨.on, ⟨40, false⟩, false, 3⟩

/-- A queue entry. -/
def entry (kind : BitVec 4) (dest : Byte) (payload : List Byte) (urgent : Bool) (o : Origin) (n : Nat) : QueueEntry :=
  ⟨⟨dest, 127, kind, 0, payload⟩, urgent, o, n, false⟩

/-- Branch A ON with a send queue, the tag counter at 5. -/
def queued (q : List QueueEntry) : State :=
  let s := onWith .branchA 1200 bare
  withLine s .branchA { s.blocks.line .branchA with queue := q, nextArrival := 8, tag := 5 }

/-- A winner held for a slot of Branch A. -/
def winner (c : Fin 64) (o : Fin 40) : Resolved := ⟨c, .branchA, o, .frame ⟨60, 127, 1, 0, [9, 1, 2]⟩, false⟩

/-- The part with winners held. -/
def declared (ws : List Resolved) (s : State) : State :=
  { s with blocks := { s.blocks with cues := { s.blocks.cues with resolved := ws } } }

/-- A CUE entry of show 0 at slot 12. -/
def cue (period phase priority tolerance : Nat) (a : CueAction) : CueConfig := ⟨true, 0, 12, period, phase, priority, tolerance, a⟩

/-- Chapter 7's cues 10 and 11 on Branch A, show 0 RUNNING, with cue 10's run state; cue 11 is drawn when cue 10 is. -/
def shown (x : CueRun) : State :=
  let s := driven 2 ⟨.branchA, 30, 0, .jet⟩ .inShow (plainLimits 600 0) .showLoad 191 (onWith .branchA 1200 bare)
  let ten := cue 4 1 3 2 (.frame .branchA 60 [9, 1, 2])
  let eleven := cue 1 0 5 0 (.level 2 191)
  { s with
    tables := { s.tables with cues := (s.tables.cues.set 10 ten).set 11 eleven }
    blocks := { s.blocks with cues := { s.blocks.cues with
      running := s.blocks.cues.running.set 0 true
      runs := (s.blocks.cues.runs.set 10 x).set 11 ⟨0, false, 0, 0, x.drawn⟩ } } }

/-- The held mark of a command in Branch A's send queue. -/
def held (c : MowerCommand) (n : Nat) : HeldCommand := ⟨⟨c, .branchA, n⟩, decide (c = .charge), false⟩

/-- A mower record changed. -/
def mowing (m : Fin 4) (x : Mower) (s : State) : State := withMower s m x

/-! ## Frames, receivers and the trunk -/

/-- R2's test bytes. -/
theorem test_check_of_test_bytes : crc16 [0x31, 0x32, 0x33, 0x34, 0x35, 0x36, 0x37, 0x38, 0x39] = 0x29B1#16 := by decide +kernel

/-- Section 1.9: MOWER-GO for zone 7, 45 minutes, tag 5, to node 23: start mark, length 3, 23, 127, 25 hex, 2, 7, 45. -/
theorem test_mower_go_bytes : (Frame.mk 23 127 2 5 [2, 7, 45]).encode.take 8 = [0xC3, 3, 23, 127, 0x25, 2, 7, 45] := by decide +kernel

/-- R4, R6: a frame to 127 of kind MANAGE passes the screen, one to 126 does not (R5). -/
theorem test_screen : screen ⟨127, 126, 6, 0, [18, 0, 0, 0]⟩ = .manage ∧ screen ⟨126, 126, 1, 0, [9]⟩ = .formatFault := by decide +kernel

/-- A good frame joins the FIFO, and its bytes with one check bit changed are a trunk error (R3, R40). -/
theorem test_trunk_frames :
    (after (.trunkGoodFrame (Frame.mk 127 126 6 3 [18, 0, 0, 0]).onWire) bare).trunk.fifo.length = 1 ∧
      (after (.trunkFault ((Frame.mk 127 126 6 3 [18, 0, 0, 0]).onWire.dropLast ++ [⟨0, true⟩])) bare).trunk.errors = 1 := by
  decide +kernel

theorem test_trunk_silence : (after (.trunkByteTimeout [⟨0x55, true⟩]) bare).trunk.errors = 1 := by decide +kernel

/-- Section 3.6, frame d with entry 3 disabled: UNROUTED, subject 70, kind 1. -/
theorem test_unrouted :
    payloads (after .frTakeTrunkFrame { bare with trunk := { bare.trunk with fifo := [⟨⟨70, 126, 1, 0, [9]⟩, false⟩] } }) =
      [[14, 70, 0, 1, 0, 0, 0]] := by decide +kernel

/-- The oldest frame is sent, and then leaves the queue (R45). -/
theorem test_transmitter :
    (after .trunkTxStart State.reset).trunk.transmitting =
        some (Frame.mk 126 127 8 0 [1, 0, 0, 0, 0, 0, 0]).encode ∧
      (after .trunkTxDone (after .trunkTxStart State.reset)).blocks.up.queue = [] := by decide +kernel

/-! ## Management requests -/

/-- R13: vendor 7A21, part 0340, revision 1 and the capacities. -/
theorem test_identify : payloads (after .identify (asked (req 17 0 0 0 []) bare)) =
    [[0, 0, 0, 0, 0x7A, 0x21, 0x03, 0x40, 1, 16, 32, 16, 24, 8, 32, 64, 4, 32, 64, 4]] := by decide +kernel

theorem test_bad_code : lastResult (after .badRequestCode (asked (req 20 0 0 0 []) bare)) = some 5 := by decide +kernel

theorem test_status : (payloads (after .status (asked (req 18 0 0 0 []) overloaded))).map (fun p => p.take 6) = [[0, 0, 0, 0, 1, 0]] := by
  decide +kernel

/-- Section 10.5 and R174: GLOBAL of a blank store names no channel, dry-off 0, silence timeout 120. -/
theorem test_read_global : payloads (after .read (asked (req 1 14 0 1 []) bare)) =
    [[0, 14, 0, 1, 255, 255, 255, 0, 0, 0, 120]] := by decide +kernel

theorem test_write_bad_table : lastResult (after .write (asked (req 2 15 0 1 []) bare)) = some 3 := by decide +kernel

/-- Section 10.7: SUPPLY with budget 2400 is DONE-CLAMPED and reads 2000. -/
theorem test_write_supply :
    (after .writeSupply (asked (req 2 13 0 1 [0x09, 0x60, 1]) bare)).tables.supply.forA = ⟨2000, true⟩ ∧
      lastResult (after .writeSupply (asked (req 2 13 0 1 [0x09, 0x60, 1]) bare)) = some 1 := by decide +kernel

/-- Section 10.7: a WRITE of which one entry is forbidden writes nothing. -/
theorem test_write_bind_refused :
    let s := driven 5 ⟨.branchB, 40, 2, .lamp⟩ .auto (plainLimits 100 0) .ambient 0 bare
    let t := after .writeDriveBind (asked (req 2 5 4 2 [0, 33, 0, 0, 1, 41, 2, 2]) s)
    lastResult t = some 6 ∧ (t.tables.binds.get 4).dest = 0 := by decide +kernel

theorem test_write_route : (after .writeRoute (asked (req 2 1 1 1 [1, 16, 15, 1, 1, 1]) bare)).tables.routes.get 1 =
    ⟨true, 16, 15, .onlyA, true, true⟩ := by decide +kernel

theorem test_write_poll : ((after .writePoll (asked (req 2 3 0 1 [52, 4]) bare)).tables.polls.forB.get 0).interval = 4 := by decide +kernel

/-- A new binding makes the channel EMPTY (R60). -/
theorem test_write_channel :
    let t := after .writeChannel (asked (req 2 4 2 1 [1, 0, 18, 0, 0, 9, 1, 44, 0, 250, 0, 40, 0, 20, 10, 0, 5]) bare)
    (t.tables.channels.get 2).highAlarm = 300 ∧ (t.blocks.channel 2).state = .empty := by decide +kernel

/-- A branch code above 1 is refused for channel 13 too, although the byte is not stored (R16). -/
theorem test_write_channel_branch_code :
    let e : List Byte := [0, 2, 0, 0, 0, 9, 1, 44, 0, 250, 0, 40, 0, 20, 10, 0, 5]
    lastResult (after .writeChannel (asked (req 2 4 13 1 e) bare)) = some 5 ∧
      lastResult (after .writeChannel (asked (req 2 4 13 1 (e.set 1 1)) bare)) = some 0 := by decide +kernel

theorem test_write_shape :
    ((after .writeDriveShape (asked (req 2 6 3 1 [1, 2, 0, 40, 0, 10, 1, 5, 40, 1, 60, 6, 0]) bare)).tables.shapes.get 3).holdChannel =
      some 1 := by decide +kernel

theorem test_write_limit :
    (after .writeDriveLimit (asked (req 2 7 3 1 [200, 80, 100, 4, 0, 5, 240, 0, 0, 2, 0, 120, 180]) bare)).tables.limits.get 3 =
      ⟨200, 80, 100, 1000, 5, 240, 0x200, 120, 180⟩ := by decide +kernel

theorem test_write_curve : ((after .writeCurve (asked (req 2 8 46 1 [120]) bare)).tables.curves.get 1).get 14 = 120 := by decide +kernel

theorem test_write_cue :
    ((after .writeCue (asked (req 2 9 10 1 [1, 0, 12, 4, 1, 3, 2, 1, 0, 60, 3, 9, 1, 2, 0, 0, 0, 0, 0]) bare)).tables.cues.get 10) =
      cue 4 1 3 2 (.frame .branchA 60 [9, 1, 2]) := by decide +kernel

theorem test_write_zone :
    (after .writeZone (asked (req 2 10 20 1 [1, 1, 255, 1, 14, 0, 120]) bare)).tables.zones.get 20 = ⟨.path, true, none, 1, some 14, 120⟩ := by
  decide +kernel

theorem test_write_rotation : (after .writeRotation (asked (req 2 11 64 1 [4]) bare)).tables.rotationLength = 4 := by decide +kernel

/-- Two enabled records with an address in common are BAD-VALUE (R151). -/
theorem test_write_mower_shared : lastResult (after .writeMower (asked (req 2 12 0 1 [1, 0, 24, 50, 0, 150, 90, 20]) loaded)) = some 5 := by
  decide +kernel

theorem test_write_global : (after .writeGlobal (asked (req 2 14 0 1 [7, 11, 10, 1, 224, 0, 60]) bare)).tables.globals =
    ⟨some 7, some 11, some 10, 480, 60⟩ := by decide +kernel

/-! ## Control requests -/

/-- MANUAL at 100 (R83). -/
theorem test_set_mode :
    let t := after .setMode (asked (req 3 0 2 0 [2, 100]) loaded)
    (t.blocks.drive 2).wanted = 100 ∧ (t.blocks.drive 2).granted = 100 ∧ lastResult t = some 0 := by decide +kernel

/-- Section 7.6: SHOW-START puts cue 10's countdown at its phase, 1. -/
theorem test_show_start :
    ((after .showStart (asked (req 4 0 0 0 []) (shown ⟨3, false, 0, 4, false⟩))).blocks.cueRun 10) = ⟨1, false, 0, 4, false⟩ := by
  decide +kernel

theorem test_show_stop :
    ((after .showStop (asked (req 5 0 0 0 []) (shown ⟨3, true, 2, 4, true⟩))).blocks.cueRun 10) = ⟨3, false, 0, 4, false⟩ := by
  decide +kernel

/-- Section 4.6, round 417: HIGH-WARN live, HIGH-ALARM only latched. -/
theorem test_clear_latched :
    let s := { bare with blocks := bare.blocks.setChannel 2 ⟨280, .fresh, ⟨false, false, true, false⟩, ⟨false, false, true, true⟩, 1, none⟩ }
    ((after .clearLatched (asked (req 6 0 2 1 []) s)).blocks.channel 2).latched = ⟨false, false, true, false⟩ := by decide +kernel

theorem test_trip_drive :
    let t := after .tripDrive (asked (req 8 0 3 0 []) loaded)
    (t.blocks.drive 3).granted = 0 ∧ (payloads t).head? = some [3, 3, 255, 255, 0, 0, 0] := by decide +kernel

theorem test_reset_trip :
    let s := withDrive loaded 3 { loaded.blocks.drive 3 with tripped := true, wanted := 0, granted := 0 }
    ((after .resetTrip (asked (req 7 0 3 0 []) s)).blocks.drive 3).tripped = false := by decide +kernel

/-- Section 6.7: in round 2230 RESTORE-BRANCH is TOO-SOON, in round 2250 it is done. -/
theorem test_restore_branch :
    let s := fun (n : Round) => { supplied .branchA ⟨.tripped, ⟨2244, false⟩, false, 0⟩ loaded with clock := ⟨n, 3⟩ }
    lastResult (after .restoreBranch (asked (req 9 0 0 0 []) (s 2230))) = some 7 ∧
      (payloads (after .restoreBranch (asked (req 9 0 0 0 []) (s 2250)))).head? = some [9, 0, 0, 2, 4, 176, 0] := by decide +kernel

theorem test_branch_off :
    let t := after .branchOff (asked (req 10 0 0 0 []) loaded)
    t.blocks.supplyState .branchA = .off ∧ (t.blocks.drive 3).granted = 0 ∧ (t.blocks.drive 3).unpowered = true ∧
      (t.blocks.mower 1).state = .docked := by decide +kernel

theorem test_hold_and_resume :
    (after .hold (asked (req 11 0 0 0 []) bare)).blocks.mowers.held = true ∧
      (after .resume (asked (req 13 0 0 0 []) (after .hold (asked (req 11 0 0 0 []) bare)))).blocks.mowers.held = false := by decide +kernel

/-- A MOWING mower is recalled with an URGENT MOWER-HOME (R22, R169). -/
theorem test_recall :
    let t := after .recall (asked (req 12 0 0 0 []) (mowing 1 { Mower.startUp with state := .mowing } loaded))
    (t.blocks.line .branchA).queue = [entry 2 23 [3] true (.mower 1 .home) 0] ∧ t.blocks.mowers.held = true := by decide +kernel

/-- A MOWER-GO that waits is withdrawn as its mower, INBOUND, becomes LOST (R168). -/
theorem test_lost_withdraws_go :
    let s := queued [entry 2 23 [2, 7, 45] false (.mower 1 .go) 3, entry 1 60 [9] false .trunk 4]
    let g := nodeLost loaded.tables .branchA 23 (mowing 1 { Mower.startUp with state := .inbound, commands := [held .go 3], homeOwed := true } s).blocks
    (g.1.line .branchA).queue = [entry 1 60 [9] false .trunk 4] ∧ g.1.mower 1 = { Mower.startUp with state := .lost } := by decide +kernel

/-- The outcome of a CHARGE on queued on Branch B is its own while a CHARGE off still waits on Branch A (R156). -/
theorem test_charge_outcome_by_entry :
    let off : HeldCommand := ⟨⟨.charge, .branchA, 3⟩, false, false⟩
    let on : HeldCommand := ⟨⟨.charge, .branchB, 0⟩, true, false⟩
    let g := takeOutcome loaded.tables 1 on.id .refused (mowing 1 { Mower.startUp with state := .charging, commands := [off, on] } loaded).blocks
    (g.1.mower 1).state = .docked ∧ (g.1.mower 1).commands = [off] := by decide +kernel

/-- The outcome of a MOWER-GO from before the record was disabled moves no mower (R170). -/
theorem test_former_go_is_discarded :
    let g := takeOutcome loaded.tables 1 (held .go 3).id .accepted
      (mowing 1 { Mower.startUp with state := .assigned, assigned := some 9, commands := [{ held .go 3 with former := true }] } loaded).blocks
    g.1.mower 1 = { Mower.startUp with state := .assigned, assigned := some 9 } := by decide +kernel

/-- A supply that rises under an asserted reset line leaves the part held until the line is released (R188). -/
theorem test_reset_line_holds_at_power_up :
    let held := after (.startUp .powerUp ⟨0, 0, 240, 20⟩) (after .resetLineAssert (after .powerLoss bare))
    held.life = .held ∧ (after (.startUp .resetLine ⟨0, 0, 240, 20⟩) held).life = .running := by decide +kernel

theorem test_zone_veto : ((after .zoneVeto (asked (req 14 0 9 0 [1]) bare)).blocks.zone 9).vetoByte = 16 := by decide +kernel

theorem test_clear_mower :
    let t := after .clearMower (asked (req 15 0 1 0 []) (mowing 1 { Mower.startUp with state := .lost } loaded))
    (t.blocks.mower 1).state = .absent ∧ payloads t = [[17, 1, 0, 0, 0, 8, 0], [0, 0, 1, 0]] := by decide +kernel

/-- Section 10.7: STORE holds its reply, and the eighth part completes the image. -/
theorem test_store :
    let s := after .store (asked (req 16 0 0 0 []) bare)
    let c : Commit := ⟨bare.tables, 7, req 16 0 0 0 []⟩
    s.agent.commit.isSome = true ∧ payloads s = [] ∧
      (after .storeCommitComplete { s with agent := { s.agent with commit := some c } }).agent.image.isValid = true ∧
      lastResult (after .storeCommitFail s) = some 6 := by decide +kernel

theorem test_restart :
    let s := after .trunkTxDone (after .trunkTxStart (after .restart (asked (req 19 0 0 0 []) bare)))
    s.agent.restart = .replied ∧ payloads (after (.startUp .restart ⟨0, 0, 240, 20⟩) s) = [[1, 0, 0, 0, 0, 2, 0]] := by decide +kernel

/-! ## Levels, flags and loads -/

/-- The points of R86's examples. -/
def points : Table Nat 32 :=
  (((((Table.fill 32 0).set 13 104).set 14 120).set 15 136).set 16 150).set 5 90 |>.set 6 70

/-- R86's examples: 131, 77, 136, and point 16 at the far end of the range. -/
theorem test_curve_examples :
    curveLevel points 40 10 187 = 131 ∧ curveLevel points 40 10 97 = 77 ∧ curveLevel points 40 10 190 = 136 ∧
      curveLevel points (-32768) 4095 32767 = 150 := by decide +kernel

/-- Section 4.6: 246 keeps HIGH-WARN within its band, 280 clears HIGH-ALARM, 238 clears HIGH-WARN. -/
theorem test_flag_examples :
    let k : ChannelConfig := ⟨true, .branchA, 18, 0, 9, 300, 250, 40, 20, 10, 5⟩
    evaluateFlags k 246 ⟨false, false, true, false⟩ = ⟨false, false, true, false⟩ ∧
      evaluateFlags k 280 ⟨false, false, true, true⟩ = ⟨false, false, true, false⟩ ∧
      evaluateFlags k 238 ⟨false, false, true, false⟩ = ⟨false, false, false, false⟩ := by decide +kernel

/-- Section 6.7: at half the budget lamp 7 is granted 64, jet 2 92, pump 3 171 and the charge suspended, 600 in all. -/
theorem test_reduction_example :
    let u := ({ loaded.blocks.slu with supplyLow := true }.reduceTo loaded.tables .branchA).unit
    (u.drives.get 7).granted = 64 ∧ (u.drives.get 2).granted = 92 ∧ (u.drives.get 3).granted = 171 ∧ (u.charges.get 1).granted = 0 ∧
      u.grantSum loaded.tables .branchA = 600 := by decide +kernel

/-- Section 6.7: the full budget re-admits them, 1196 in all. -/
theorem test_readmission_example :
    let low := ({ loaded.blocks.slu with supplyLow := true }.reduceTo loaded.tables .branchA).unit
    (({ low with supplyLow := false }.readmit loaded.tables .branchA).1.grantSum loaded.tables .branchA) = 1196 := by decide +kernel

/-! ## Rounds, slots and lines -/

theorem test_round_start :
    let t := after (.roundStart ⟨0, 0, 240, 20⟩ true) bare
    t.clock = ⟨1, 0⟩ ∧ t.trunk.silenceTimer = 119 ∧ (t.blocks.channel 14).value = 240 := by decide +kernel

/-- Section 6.7, round 2204: the fourth high sample trips Branch A with cool-down end 2244, and BRANCH-TRIPPED carries 1330 and 1196. -/
theorem test_branch_trip :
    let t := after (.branchTrip .branchA 1330) overloaded
    t.blocks.slu.supply.forA = ⟨.tripped, ⟨2244, false⟩, false, 0⟩ ∧ (payloads t).head? = some [8, 0, 5, 50, 4, 172, 0] := by decide +kernel

theorem test_auto_on :
    let s := supplied .branchA ⟨.off, ⟨40, false⟩, true, 0⟩ { bare with
      clock := ⟨39, 0⟩, tables := { bare.tables with supply := bare.tables.supply.set .branchA ⟨1200, true⟩ } }
    (after (.autoOn .branchA) s).blocks.supplyState .branchA = .on := by decide +kernel

/-- Section 4.6: the start of round 1010 brings channel 4 to its stale limit of 6. -/
theorem test_channel_stale :
    let s := { bare with
      tables := { bare.tables with channels := bare.tables.channels.set 4 { bare.tables.channels.get 4 with staleLimit := 6 } }
      blocks := bare.blocks.setChannel 4 ⟨206, .fresh, Flags.clear, Flags.clear, 5, none⟩ }
    ((after (.channelStale 4) s).blocks.channel 4).state = .stale := by decide +kernel

theorem test_refresh_due :
    let s := withDrive loaded 3 { loaded.blocks.drive 3 with roundsSinceSend := 239 }
    let t := { s with tables := { s.tables with limits := s.tables.limits.set 3 { s.tables.limits.get 3 with refresh := 240 } } }
    ((after (.refreshDue 3) t).blocks.drive 3).pending = true := by decide +kernel

theorem test_retry_expiry : ((after (.retryTimerExpiry 1) (mowing 1 { Mower.startUp with retry := 1 } loaded)).blocks.mower 1).retry = 0 := by
  decide +kernel

theorem test_stint_expiry :
    ((after (.stintExpiry 1) (mowing 1 { Mower.startUp with state := .mowing, stint := 1 } loaded)).blocks.mower 1).homeOwed = true := by
  decide +kernel

/-- Section 8.6: at the end of the dry-off no LAWN zone keeps RAIN. -/
theorem test_dry_off_expiry :
    let s := { bare with blocks := { bare.blocks with zones :=
      { bare.blocks.zones.setRain bare.tables .drying 1 with dryOffRemaining := 1 } } }
    (s.blocks.zone 3).rain = true ∧ ((after .dryOffExpiry s).blocks.zone 3).rain = false ∧
      (after .dryOffExpiry s).blocks.zones.rain = .dry := by decide +kernel

theorem test_transit_hold_expiry :
    let s := { bare with blocks := bare.blocks.setZone 20 { bare.blocks.zone 20 with light := .holding, holdRemaining := 1 } }
    ((after (.transitHoldExpiry 20) s).blocks.zone 20).light = .idle := by decide +kernel

theorem test_island_begun :
    let t := after .islandBegun { bare with trunk := { bare.trunk with silenceTimer := 1 } }
    t.trunk.island = true ∧ payloads t = [[20, 0, 0, 120, 0, 0, 0]] := by decide +kernel

/-- Section 2.9, slot 10: entry a does not fit before a cue's slot, and entry b is sent. -/
theorem test_general_slot_skips :
    let q := [entry 2 23 [2, 7, 45] false (.mower 1 .go) 6, entry 1 40 [9] false .trunk 7]
    let t := after (.generalSlot .branchA 10) (declared [winner 5 11] (queued q))
    (t.blocks.line .branchA).sending.map (fun x => x.frame.dest) = some 40 ∧ (t.blocks.line .branchA).tag = 5 := by decide +kernel

/-- Section 2.9, slot 12: entry c's exchange starts with tag 5, and the counter becomes 6. -/
theorem test_general_slot_exchange :
    let q := [entry 2 23 [2, 7, 45] false (.mower 1 .go) 6, entry 2 31 [3] true (.mower 2 .home) 7]
    let l := (after (.generalSlot .branchA 12) (queued q)).blocks.line .branchA
    l.exchange = some ⟨31, 5, .entry 7 (.mower 2 .home), 13⟩ ∧ l.tag = 6 := by decide +kernel

theorem test_poll_slot :
    let s := queued []
    let p := { s with tables := { s.tables with polls := s.tables.polls.set .branchA (s.tables.polls.forA.set 2 ⟨52, 4⟩) } }
    let l := (after (.pollSlot .branchA 1) p).blocks.line .branchA
    l.exchange = some ⟨52, 5, .pollTable, 43⟩ ∧ (l.polls.get 2).nextDue = ⟨4, false⟩ := by decide +kernel

/-- Section 7.6: at the draw of round 301 cue 10's countdown goes from 0 to 3, and it is due. -/
theorem test_cue_draw :
    ((after .cueDraw (shown ⟨0, false, 0, 0, false⟩)).blocks.cueRun 10) = ⟨3, false, 0, 0, true⟩ ∧
      ((after .cueDraw (shown ⟨1, false, 0, 0, false⟩)).blocks.cueRun 10) = ⟨0, false, 0, 0, false⟩ := by decide +kernel

/-- Section 7.6, round 302: cue 11 wins, and cue 10 is postponed. -/
theorem test_cue_resolve :
    let t := after (.cueResolve .branchA 12) (shown ⟨3, false, 0, 0, true⟩)
    t.blocks.cueRun 10 = ⟨3, true, 1, 1, false⟩ ∧ t.blocks.cues.resolved.map (fun w => w.cue) = [11] ∧
      payloads t = [[15, 10, 0, 1, 0, 1, 0]] := by decide +kernel

/-- A frame being sent in slot 12 of Branch A. -/
def sendingIn (x : Sending) (s : State) : State :=
  withLine s .branchA { s.blocks.line .branchA with sending := some x, sentIn := some x.slot }

/-- A collision is counted and COLLISION carries the slot and the kind (R35, R184); a clean echo of a COMMAND empties the queue. -/
theorem test_echo :
    let e := entry 1 40 [9] false .trunk 7
    let s := sendingIn ⟨e.frame, 12, .entry 7, 0, false⟩ (queued [e])
    ((after (.echoJudged .branchA e.frame.onWire) s).blocks.line .branchA).queue = [] ∧
      payloads (after (.echoJudged .branchA []) s) = [[12, 0, 0, 12, 0, 1, 0]] := by decide +kernel

/-- Section 2.9, slot 15: a silent answer slot is NO-ANSWER, and the entry leaves the queue. -/
theorem test_answer_slot :
    let e := entry 2 23 [2, 7, 45] false (.mower 1 .go) 6
    let s := withLine (queued [e]) .branchA { (queued [e]).blocks.line .branchA with
      exchange := some ⟨23, 6, .entry 6 (.mower 1 .go), 15⟩ }
    ((after (.answerSlotJudged .branchA []) s).blocks.line .branchA).queue = [] := by decide +kernel

theorem test_unsolicited : ((after (.unsolicitedFrame .branchB 7 [⟨1, true⟩]) bare).blocks.line .branchB).unsolicited = 1 := by decide +kernel

/-! ## Reset, power and start-up -/

theorem test_stops :
    (after .resetLineAssert loaded).life = .held ∧ (after .powerLoss loaded).blocks.supplyState .branchA = .off := by decide +kernel

/-- The first samples are taken at the start of round 0, and a switch that is open reads at most 3 (R64, R188). -/
theorem test_start_up :
    let t := after (.startUp .resetLine ⟨900, 2, 240, 20⟩) (after .resetLineAssert loaded)
    t.life = .running ∧ (t.blocks.channel 12).value = 3 ∧ (t.blocks.channel 15).value = 20 ∧
      payloads t = [[1, 0, 0, 0, 0, 1, 0]] := by decide +kernel

/-- Nothing is spelled by a word: the table gives its rows no bits. -/
theorem test_no_words : decodeTableWord 16 0x1234 = none := rfl

/-! ## Ill-formed commands are refused -/

theorem test_no_bytes_ill_formed : (Instr.trunkGoodFrame []).wellFormed = false := rfl
theorem test_long_slot_ill_formed : (Instr.answerSlotJudged .branchA (List.replicate 39 ⟨0, true⟩)).wellFormed = false := by decide
theorem test_long_echo_ill_formed : (Instr.echoJudged .branchA (List.replicate 32 ⟨0, true⟩)).wellFormed = false := by decide
theorem test_current_ill_formed : (Instr.branchTrip .branchA 3001).wellFormed = false := by decide
theorem test_well_formed : (Instr.branchTrip .branchA 3000).wellFormed = true := by decide

/-! ## Witnesses: for each statement with hypotheses, states and operands that meet them, clause by clause -/

/-- Commands put at the front of the queue. -/
def sent (c : Instr) (s : State) : State := { s with pending := c :: s.pending }

/-- The part with frames in its receive FIFO. -/
def received (es : List FifoEntry) (s : State) : State := { s with trunk := { s.trunk with fifo := es } }

/-- The part with one route entry at number 2. -/
def routed (e : RouteEntry) (s : State) : State := { s with tables := { s.tables with routes := s.tables.routes.set 2 e } }

/-- A commit in flight with some parts written. -/
def committing (parts : Nat) (s : State) : State :=
  { s with
    agent := { s.agent with commit := some ⟨s.tables, parts, req 16 0 0 0 []⟩, image := { s.agent.image with mark := false } }
    blocks := { s.blocks with up := { s.blocks.up with claimed := 1 } } }

theorem witness_StepRunsTheFrontCommand : (sent .hold (sent .read loaded)).pending = .hold :: [.read] := rfl

/-- A request held, and a send queue of 16. -/
theorem witness_QueuesKeptWithinPlaces :
    let s := queued (List.replicate 16 (entry 1 40 [9] false .trunk 7))
    (upstreamSound (asked (req 18 0 0 0 []) State.reset) ∧ ∃ t, step (sent .status (asked (req 18 0 0 0 []) State.reset)) = .next t) ∧
      queuesSound s ∧ ∃ t, step (sent (.generalSlot .branchA 0) s) = .next t :=
  ⟨⟨⟨by decide, by decide, by decide⟩, _, rfl⟩,
    ⟨by decide, by unfold Line.withinPlaces; decide, by unfold Line.withinPlaces; decide⟩, _, rfl⟩

theorem witness_RotationPointerKept :
    let s := committing 7 { loaded with tables := { loaded.tables with rotationLength := 64 }
                                        blocks := { loaded.blocks with mowers := { loaded.blocks.mowers with pointer := 63 } } }
    rotationSound s ∧ ∃ t, step (sent .storeCommitComplete s) = .next t := by
  refine ⟨⟨by decide, by unfold isRotationLength; decide, by unfold isRotationLength; decide, ?_⟩, _, rfl⟩
  intro c h
  cases h
  unfold isRotationLength
  decide

theorem witness_LatchesAndPostponementsKept :
    (latchesSound overloaded ∧ ∃ t, step (sent (.branchTrip .branchA 1330) overloaded) = .next t) ∧
      postponementsSound (shown ⟨3, true, 2, 2, true⟩) ∧
      ∃ t, step (sent (.cueResolve .branchA 12) (shown ⟨3, true, 2, 2, true⟩)) = .next t :=
  ⟨⟨by unfold latchesSound Flags.within; decide +kernel, _, rfl⟩, by unfold postponementsSound; decide +kernel, _, rfl⟩

theorem witness_StoreKept : storeSound (committing 7 bare) ∧ ∃ t, step (sent .storeCommitComplete (committing 7 bare)) = .next t := by
  refine ⟨⟨by decide, ?_⟩, _, rfl⟩
  intro c h
  cases h
  decide

theorem witness_OccupancyKept :
    let s := { bare with blocks := bare.blocks.setZone 9 { bare.blocks.zone 9 with occupants := 2 } }
    occupancySound s ∧ (s.blocks.zone 9).occupiedBy 1 = true ∧ ∃ t, step (sent (.retryTimerExpiry 1) s) = .next t := by
  refine ⟨?_, by decide +kernel, _, rfl⟩
  unfold occupancySound
  decide +kernel

/-- At the limits: unsolicited frames, misses and garbles. -/
theorem witness_CountsKeptWithinLimits :
    let s := withLine bare .branchB { bare.blocks.line .branchB with
      unsolicited := 65535, polls := Table.fill 32 ⟨⟨0, false⟩, .absent, 255, 65535⟩ }
    countsSound s ∧ ∃ t, step (sent (.unsolicitedFrame .branchB 7 [⟨1, true⟩]) s) = .next t := by
  refine ⟨⟨by decide, by decide, by decide, by decide, by decide, fun b => ?_, ?_, ?_, ?_⟩, _, rfl⟩
  · cases b <;> decide +kernel
  all_goals decide +kernel

/-- Every row of the worked load case is sound. -/
theorem loaded_rowSound (i : LoadId) : loaded.blocks.slu.rowSound loaded.tables i := by
  rcases i with d | m
  · revert d
    unfold SupplyUnit.rowSound
    decide +kernel
  · revert m
    unfold SupplyUnit.rowSound
    decide +kernel

/-- The worked load case meets the law of the load tables. -/
theorem loaded_loadTablesSound : loadTablesSound loaded := by
  refine ⟨fun b i h => ⟨loaded_rowSound i, ?_⟩, fun b => ?_, ?_⟩
  · rcases i with d | m
    · revert d b
      unfold LoadRow.quiet
      intro b
      cases b <;> decide +kernel
    · revert m b
      unfold LoadRow.quiet
      intro b
      cases b <;> decide +kernel
  · unfold SupplyUnit.withinBudget
    cases b <;> decide +kernel
  · unfold LoadRow.quiet
    decide +kernel

theorem witness_LoadTablesKept : loadTablesSound loaded ∧ ∃ t, step (sent (.branchTrip .branchA 1330) loaded) = .next t :=
  ⟨loaded_loadTablesSound, _, rfl⟩

/-- Three bound drives with power, each granted what it wants. -/
theorem witness_DriveLevelsKept :
    loadTablesSound loaded ∧ levelsSound loaded ∧ loaded.tables.bound 3 = true ∧ (loaded.blocks.drive 3).granted = 171 ∧
      ∃ t, step (sent (.refreshDue 3) loaded) = .next t := by
  refine ⟨loaded_loadTablesSound, fun _ d => ?_, by decide +kernel, by decide +kernel, _, rfl⟩
  refine ⟨?_, ?_, ?_, fun hb hu => ⟨fun _ => .inl ?_, fun h => ?_⟩⟩
  · revert d
    decide +kernel
  · revert d
    decide +kernel
  · revert d
    decide +kernel
  · revert d
    decide +kernel
  · refine absurd ?_ h
    revert d
    decide +kernel

/-- Mower 1 is CHARGING with its row granted. -/
theorem witness_ChargingMatchesGrants :
    loadTablesSound loaded ∧ chargingSound loaded ∧ (loaded.tables.mowers.get 1).enabled = true ∧
      (loaded.blocks.mower 1).state = .charging ∧ ∃ t, step (sent (.retryTimerExpiry 1) loaded) = .next t := by
  refine ⟨loaded_loadTablesSound, fun _ => ⟨?_, fun b => ?_⟩, by decide +kernel, rfl, _, rfl⟩
  · unfold chargeSound
    decide +kernel
  · cases b <;> decide +kernel

/-- Mower 1 OUTBOUND on the path of zone 20. -/
def crossing : State :=
  let s := mowing 1 { Mower.startUp with state := .outbound } loaded
  { s with
    tables := { s.tables with zones := s.tables.zones.set 20 ⟨.path, true, none, 1, some 7, 120⟩ }
    blocks := { s.blocks.setZone 20 { s.blocks.zone 20 with transitCount := 1 } with
      zones := { (s.blocks.setZone 20 { s.blocks.zone 20 with transitCount := 1 }).zones with
        transitZones := s.blocks.zones.transitZones.set 1 (some 20) } } }

theorem witness_TransitCountsKept :
    crossing.blocks.agenda = [] ∧ transitSound crossing ∧ (crossing.blocks.zone 20).transitCount = 1 ∧
      ∃ t, step (sent (.retryTimerExpiry 1) crossing) = .next t ∧ t.blocks.agenda = [] := by
  refine ⟨rfl, ?_, by decide +kernel, _, rfl, by decide +kernel⟩
  unfold transitSound mowersCrossing
  decide +kernel

/-- The longest payload. -/
theorem witness_ReceivedFrameIsTheFrameSent : (Frame.mk 126 20 5 3 (List.replicate 24 7)).wellFormed := by
  unfold Frame.wellFormed
  decide

/-- With room, with a full FIFO, and in ISLAND with its rounds at their limit. -/
theorem witness_GoodTrunkFrameIsTaken :
    let e : FifoEntry := ⟨⟨127, 126, 6, 3, [18, 0, 0, 0]⟩, false⟩
    let full := received (List.replicate 8 e) bare
    let island := { bare with trunk := { bare.trunk with island := true, islandRounds := 32767, silenceTimer := 0 } }
    (bare.life = .running ∧ bare.trunk.receiver = .hunting false ∧ bare.trunk.island = false ∧ bare.trunk.fifo.length < 8) ∧
      (full.life = .running ∧ full.trunk.receiver = .hunting false ∧ full.trunk.island = false ∧ e.frame.wellFormed) ∧
      island.life = .running ∧ island.trunk.receiver = .hunting false ∧ island.trunk.island = true ∧ island.blocks.up.hasRoom = true :=
  ⟨⟨rfl, rfl, rfl, by decide⟩, ⟨rfl, rfl, rfl, by unfold Frame.wellFormed; decide⟩, rfl, rfl, rfl, rfl⟩

/-- Length 25; a 7-byte frame with a check that differs; one discarded byte; and a frame and a run cut by silence. -/
theorem witness_TrunkFaultsAreCounted :
    let cut := { bare with trunk := { bare.trunk with receiver := .assembling [⟨3, true⟩] } }
    let run := { bare with trunk := { bare.trunk with receiver := .hunting true } }
    let rest : List RxByte := [⟨127, true⟩, ⟨126, true⟩, ⟨0x63, true⟩, ⟨0, true⟩, ⟨0, true⟩]
    let values := ((⟨0, true⟩ : RxByte) :: rest).map RxByte.value
    (bare.life = .running ∧ bare.trunk.receiver = .hunting false ∧ 24 < (25 : Byte).toNat) ∧
      ((0 : Byte).toNat ≤ 24 ∧ rest.length = (0 : Byte).toNat + 5 ∧
        values.drop 4 ≠ [hiByte (crc16 (values.take 4)), loByte (crc16 (values.take 4))]) ∧
      (([⟨0x55, true⟩] : List RxByte) ≠ [] ∧ ∀ z ∈ ([⟨0x55, true⟩] : List RxByte), z.value ≠ 0xC3) ∧
      (cut.life = .running ∧ cut.trunk.receiver = .assembling [⟨3, true⟩]) ∧ run.life = .running ∧ run.trunk.receiver = .hunting true := by
  decide +kernel

/-- A notice first in the queue, a reply first, nothing queued, and a frame being sent. -/
theorem witness_TransmitterSendsTheOldestFrame :
    let reply := { bare with blocks := { bare.blocks with up := ⟨[⟨replyTo (req 18 0 0 0 []) 0 0 [], true⟩], 0, 0⟩ } }
    let sending := { reply with trunk := { reply.trunk with transmitting := some [0xC3] } }
    (bare.life = .running ∧ bare.blocks.up.queue = [] ∧ bare.trunk.transmitting = none) ∧
      (State.reset.life = .running ∧ State.reset.trunk.island = false ∧ State.reset.trunk.transmitting = none ∧
        ∃ x rest, State.reset.blocks.up.queue = x :: rest ∧ x.frame.kind = 8 ∧ x.frame.payload.length = 7) ∧
      (reply.trunk.island = false ∧ reply.trunk.transmitting = none ∧ ∃ x rest, reply.blocks.up.queue = x :: rest ∧ x.frame.kind ≠ 8) ∧
      sending.trunk.transmitting = some [0xC3] ∧ ∃ x rest, sending.blocks.up.queue = x :: rest ∧ x.restart = true :=
  ⟨⟨rfl, rfl, rfl⟩, ⟨rfl, rfl, rfl, _, _, rfl, rfl, rfl⟩, ⟨rfl, rfl, _, _, rfl, by decide⟩, rfl, _, _, rfl, rfl⟩

/-- One frame for each disjunct of a bad form; a request with one place of the queue left, and with none; an empty FIFO. -/
theorem witness_TrunkFramesAreScreened :
    let e : FifoEntry := ⟨⟨127, 126, 6, 3, [18, 0, 0, 0]⟩, false⟩
    let holding := fun n => received [e] { bare with blocks := { bare.blocks with up := ⟨[], n, 0⟩ } }
    (routerTakes (received [⟨⟨20, 126, 0, 0, []⟩, false⟩] bare) ⟨⟨20, 126, 0, 0, []⟩, false⟩ [] ∧
      badForm ⟨20, 126, 0, 0, []⟩ ∧ badForm ⟨126, 126, 1, 0, [9]⟩ ∧ badForm ⟨112, 126, 3, 0, []⟩ ∧ badForm ⟨126, 126, 6, 0, [1, 0, 0, 0]⟩ ∧
      badForm ⟨127, 126, 1, 0, [9]⟩ ∧ badForm ⟨127, 126, 6, 0, [1, 0, 0]⟩ ∧ badForm ⟨20, 126, 1, 0, []⟩) ∧
      (routerTakes (holding 31) e [] ∧ (holding 31).blocks.up.inUse < 32) ∧
      (routerTakes (holding 32) e [] ∧ 32 ≤ (holding 32).blocks.up.inUse) ∧ bare.life = .running ∧ bare.trunk.fifo = [] := by
  refine ⟨⟨⟨rfl, rfl, rfl, rfl⟩, ?_, ?_, ?_, ?_, ?_, ?_, ?_⟩, ⟨⟨rfl, rfl, rfl, rfl⟩, by decide⟩, ⟨⟨rfl, rfl, rfl, rfl⟩, by decide⟩, rfl, rfl⟩
  · left; decide
  · right; left; rfl
  · right; right; left; decide
  · right; left; rfl
  · right; right; right; right; left; decide
  · right; right; right; right; right; left; decide
  · right; right; right; right; right; right; exact ⟨.inl rfl, .inl rfl⟩

/-- Section 3.6's entry 1: 20 matches, 40 does not; a mask of 0 and of 127. -/
theorem witness_RouteEntryForAnAddress :
    let t := (routed ⟨true, 16, 15, .onlyA, true, true⟩ bare).tables
    (matchesEntry (t.routes.get 2) 20 ∧ ∀ j : Fin 16, j < 2 → ¬matchesEntry (t.routes.get j) 20) ∧
      (∀ i : Fin 16, ¬matchesEntry (t.routes.get i) 40) ∧ (125 : Byte).toNat ≤ 125 := by
  refine ⟨⟨?_, ?_⟩, ?_, by decide⟩ <;> unfold matchesEntry <;> decide +kernel

/-- A COMMAND, a COMMAND-ACK and a POLL with a payload: without an entry, under each target set, with a send queue of 16 and a poll-now list
of 4. -/
theorem witness_TrunkFramesAreRouted :
    let f : Frame := ⟨40, 126, 1, 0, [9]⟩
    let k : Frame := ⟨40, 126, 2, 0, [5]⟩
    let p : Frame := ⟨40, 126, 3, 5, [7, 8]⟩
    let e := fun x => (⟨true, 40, 0, x, false, true⟩ : RouteEntry)
    let full := withLine (queued (List.replicate 16 (entry 1 40 [9] false .trunk 7))) .branchA
      { (queued []).blocks.line .branchA with
        queue := List.replicate 16 (entry 1 40 [9] false .trunk 7), pollNow := List.replicate 4 ⟨52, 126, 3, []⟩ }
    (routerTakes (received [⟨f, false⟩] bare) ⟨f, false⟩ [] ∧ bare.blocks.agenda = [] ∧ plainCommand f ∧ plainCommand k ∧
        routeFor bare.tables 40 = none) ∧
      (routerTakes (received [⟨p, false⟩] (routed (e .both) full)) ⟨p, false⟩ [] ∧ p.kind = 3 ∧ 1 ≤ p.dest.toNat ∧ p.dest.toNat ≤ 111) ∧
      (∀ x ∈ [TargetSet.none, .onlyA, .onlyB, .both], routeFor (routed (e x) bare).tables 40 = some (e x)) ∧
      (bare.blocks.supplyState .branchA ≠ .on ∧ full.blocks.supplyState .branchA = .on ∧
        16 ≤ (full.blocks.line .branchA).queue.length ∧ 4 ≤ (full.blocks.line .branchA).pollNow.length) := by
  refine ⟨⟨⟨rfl, rfl, rfl, rfl⟩, rfl, ⟨.inl ⟨rfl, by decide⟩, 9, [], rfl, .inr (by decide)⟩,
    ⟨.inr ⟨rfl, by decide, by decide⟩, 5, [], rfl, .inr (by decide)⟩, by decide +kernel⟩,
    ⟨⟨rfl, rfl, rfl, rfl⟩, rfl, by decide, by decide⟩, by decide +kernel, by decide +kernel⟩

/-- A SET-LEVEL to a group and a MOWER-GO, under an entry with intercept clear, under one of target set none, and with no entry. -/
theorem witness_TrunkFramesAreRouted_commands :
    let f : Frame := ⟨125, 126, 1, 0, [1, 3, 255]⟩
    let k : Frame := ⟨111, 126, 2, 0, [2, 31, 240]⟩
    let e := fun x => (⟨true, 0, 127, x, true, false⟩ : RouteEntry)
    ownersCommand f ∧ ownersCommand k ∧ routerTakes (received [⟨k, false⟩] (routed (e .both) bare)) ⟨k, false⟩ [] ∧
      (∀ x ∈ [TargetSet.none, .onlyA, .onlyB, .both], routeFor (routed (e x) bare).tables 125 = some (e x) ∧ (e x).intercept = false) ∧
      routeFor bare.tables 125 = none :=
  ⟨⟨.inl ⟨rfl, by decide⟩, .inl ⟨rfl, 3, 255, rfl, by decide⟩⟩,
    ⟨.inr ⟨rfl, by decide, by decide⟩, .inr (.inl ⟨rfl, 31, 240, rfl, by decide, by decide, by decide⟩)⟩, ⟨rfl, rfl, rfl, rfl⟩,
    by decide +kernel, by decide +kernel⟩

/-- Pump 3 of the worked load case claims SET-LEVEL to node 16, in AUTO and in MANUAL, at its max level and above a lower one; no drive claims
output 3 of it. Mower 1 owns its node 23 and its dock 24; no mower owns 25. -/
theorem witness_CommandsAreInterceptedForTheirOwners :
    let f : Frame := ⟨16, 126, 1, 0, [1, 0, 255]⟩
    let home : Frame := ⟨23, 126, 2, 0, [3]⟩
    let charge : Frame := ⟨24, 126, 2, 0, [4, 1]⟩
    let e : RouteEntry := ⟨true, 16, 15, .onlyA, true, true⟩
    let s := received [⟨f, false⟩] (routed e loaded)
    let auto := (driven 3 ⟨.branchA, 16, 0, .pump⟩ .auto (plainLimits 420 80) .water 171 loaded).tables
    let at1 := fun x => ((mowing 1 { Mower.startUp with state := x } loaded).blocks.mower 1).state
    (routerTakes s ⟨f, false⟩ [] ∧ s.blocks.agenda = [] ∧ f.kind = 1 ∧ f.dest.toNat ≤ 125 ∧ routeFor s.tables f.dest = some e ∧
        e.target ≠ .none ∧ e.intercept = true) ∧
      (claimsLevel s.tables f 0 3 ∧ ∀ d, claimsLevel s.tables f 0 d → (s.tables.shapes.get d).mode = .manual) ∧
      (claimsLevel auto f 0 3 ∧ (auto.shapes.get 3).mode ≠ .manual) ∧ (255 : Byte).toNat ≤ (s.tables.limits.get 3).maxLevel ∧
      (∀ d, ¬claimsLevel s.tables f 3 d) ∧
      (routeFor s.tables home.dest = some e ∧ ownsAddress s.tables home.dest 1 ∧ recognised 2 home.payload ∧
        routeFor s.tables charge.dest = some e ∧ ownsAddress s.tables charge.dest 1 ∧ recognised 2 charge.payload ∧
        ∀ m, ¬ownsAddress s.tables 25 m) ∧
      (at1 .mowing = .mowing ∧ at1 .inbound = .inbound) := by
  refine ⟨⟨⟨rfl, rfl, rfl, rfl⟩, rfl, rfl, by decide, by decide +kernel, by decide, rfl⟩, ?_, ?_, by decide +kernel, ?_,
    ⟨by decide +kernel, ?_, .inr (.inr (.inl ⟨rfl, rfl⟩)), by decide +kernel, ?_, .inr (.inr (.inr ⟨rfl, 1, rfl, by decide⟩)), ?_⟩,
    by decide +kernel⟩
  · unfold claimsLevel
    decide +kernel
  · unfold claimsLevel
    decide +kernel
  · unfold claimsLevel
    decide +kernel
  · unfold ownsAddress
    decide +kernel
  · unfold ownsAddress
    decide +kernel
  · unfold ownsAddress
    decide +kernel

/-- Channel 2 takes value 1 of node 52; its entry has report-up set, or there is none; the queue has room, and none. -/
theorem witness_AnswersReachChannelsAndTheTrunk :
    let e : RouteEntry := ⟨true, 52, 0, .onlyB, true, false⟩
    let s := routed e { bare with tables := { bare.tables with
      channels := bare.tables.channels.set 2 ⟨true, .branchB, 52, 1, 9, 300, 250, 40, 20, 10, 5⟩ } }
    let f : Frame := ⟨127, 52, 4, 5, [0, 0, 3, 0, 7]⟩
    let full := { s.blocks with up := ⟨[], 32, 0⟩ }
    bindsTo s.tables .branchB f 2 7 ∧ (∀ v, ¬bindsTo s.tables .branchB f 3 v) ∧
      (routeFor s.tables f.source = some e ∧ routeFor bare.tables f.source = none) ∧
      (goesUp s.tables 0 .branchB .ordinary f s.blocks = true ∧ s.blocks.up.hasRoom = true ∧ f.source.toNat ≤ 111) ∧
      (goesUp s.tables 0 .branchB .ordinary f full = true ∧ full.up.hasRoom = false) ∧
      goesUp bare.tables 0 .branchB .ordinary f bare.blocks = false := by
  refine ⟨⟨by decide, by decide +kernel, by decide +kernel, by decide +kernel, by decide +kernel⟩, fun v h => absurd h.2.1 (by decide +kernel),
    ?_, ?_, ?_, ?_⟩ <;> decide +kernel

theorem witness_IdentityAndStatusAreReported :
    taken (asked (req 0 0 0 0 []) bare) (req 0 0 0 0 []) ∧ taken (asked (req 20 0 0 0 []) bare) (req 20 0 0 0 []) ∧
      taken (asked (req 17 0 0 0 []) bare) (req 17 0 0 0 []) ∧ taken (asked (req 18 0 0 0 []) loaded) (req 18 0 0 0 []) :=
  ⟨⟨rfl, rfl⟩, ⟨rfl, rfl⟩, ⟨rfl, rfl⟩, ⟨rfl, rfl⟩⟩

/-- Table 21, one entry too many, and the last entry of table 20. -/
theorem witness_ReadReturnsTheEntries :
    taken (asked (req 1 21 0 1 []) bare) (req 1 21 0 1 []) ∧
      (allTables[(req 1 20 32 2 []).table - 1]? = some .zoneState ∧ TableId.zoneState.entries < 32 + 2) ∧ 32 + 1 ≤ TableId.zoneState.entries :=
  ⟨⟨rfl, rfl⟩, ⟨rfl, by decide⟩, by decide⟩

/-- During a commit, table 15, one index too many, one byte too few, a second entry with target set 4, and no entry at all. -/
theorem witness_WritesAreCheckedFirst :
    let two : List Byte := [1, 16, 15, 1, 1, 1, 1, 16, 15, 4, 1, 1]
    (taken (asked (req 2 1 0 1 []) (committing 0 bare)) (req 2 1 0 1 []) ∧ (committing 0 bare).agent.commit.isSome = true) ∧
      (Instr.writeRoute, 1) ∈ writeRows ∧
      (taken (asked (req 2 15 0 1 []) bare) (req 2 15 0 1 []) ∧ bare.agent.commit = none) ∧
      (allTables[1 - 1]? = some .route ∧ TableId.route.entries < 15 + 2) ∧ TableId.route.entries ≥ 15 + 1 ∧
      (List.replicate 5 (0 : Byte)).length < 1 * TableId.route.size ∧
      (taken (asked (req 2 1 14 2 two) bare) (req 2 1 14 2 two) ∧ 14 + 2 ≤ TableId.route.entries ∧ 2 * TableId.route.size ≤ two.length ∧
        1 < 2 ∧ refusedValue 1 (14 + 1) ((two.drop (1 * TableId.route.size)).take TableId.route.size)) ∧
      (taken (asked (req 2 12 4 0 []) loaded) (req 2 12 4 0 []) ∧ (Instr.writeMower, 12) ∈ writeRows ∧ loaded.blocks.agenda = [] ∧
        4 + 0 ≤ TableId.mower.entries ∧ ¬addressesShared loaded.tables.mowers) := by
  refine ⟨⟨⟨rfl, rfl⟩, rfl⟩, by decide, ⟨⟨rfl, rfl⟩, rfl⟩, ⟨rfl, by decide⟩, by decide, by decide,
    ⟨⟨rfl, rfl⟩, by decide, by decide, by decide, .inr (by decide)⟩, ⟨rfl, rfl⟩, by decide, rfl, by decide, ?_⟩
  unfold addressesShared
  decide +kernel

/-- One entry of each table at the edge of what its owner takes, and one beyond. -/
theorem witness_refusedValues :
    (refusedValue 2 0 [112, 1] ∧ ¬refusedValue 2 0 [111, 240]) ∧ (refusedValue 5 0 [0, 126, 3, 2] ∧ ¬refusedValue 5 0 [1, 125, 3, 2]) ∧
      (refusedValue 6 0 [0, 0, 0, 0, 0x10, 0, 7, 255, 0, 255, 0, 255, 1] ∧ ¬refusedValue 6 0 [3, 15, 0, 0, 0x0F, 0xFF, 7, 15, 0, 255, 0, 255, 1]) ∧
      (refusedValue 4 15 [0, 2, 0, 0, 0, 1, 0, 0, 0, 0, 0, 0, 0, 0, 0, 0, 0] ∧ ¬refusedValue 4 15 [1, 1, 0, 11, 0, 1, 0, 0, 0, 0, 0, 0, 0, 0, 0, 0, 0]) ∧
      (refusedValue 7 0 [0, 0, 0, 0, 0, 0, 241] ∧ ¬refusedValue 7 0 [0, 0, 0, 0, 0, 0, 240]) ∧
      (refusedValue 10 0 [0, 0, 255, 1, 255, 9, 97] ∧ ¬refusedValue 10 0 [3, 0, 255, 240, 23, 9, 96]) ∧
      (refusedValue 11 64 [65] ∧ ¬refusedValue 11 64 [64]) ∧ (refusedValue 14 0 [16, 255, 255] ∧ ¬refusedValue 14 0 [15, 255, 255]) := by
  refine ⟨⟨?_, ?_⟩, ⟨?_, ?_⟩, ⟨?_, ?_⟩, ⟨?_, ?_⟩, ⟨?_, ?_⟩, ⟨?_, ?_⟩, ⟨?_, ?_⟩, ?_, ?_⟩ <;> simp only [refusedValue, namesNothing] <;> decide

/-- Two ROUTE entries up to the last, the last ROTATION entry, the lengths 64 and 1, and a POLL-B entry with a new and with its own address. -/
theorem witness_RouteRotationAndPollWritesAreStored :
    let es : List RouteEntry := [⟨false, 0, 0, .none, false, false⟩, ⟨true, 125, 127, .both, true, true⟩]
    let r := req 2 1 14 2 (es.flatMap RouteEntry.bytes)
    let e : PollEntry := ⟨111, 240⟩
    taken (asked r bare) r ∧ bare.agent.commit = none ∧ (∀ e ∈ es, e.wellFormed) ∧ (r.count = es.length ∧ r.first + r.count ≤ 16) ∧
      r.data = es.flatMap RouteEntry.bytes ++ [] ∧ writesOne (req 2 11 63 1 [31]) 11 (63 : Fin 64).val [byteOf (31 : Fin 32).val] ∧
      writesOne (req 2 11 64 1 [64]) 11 64 [byteOf 64] ∧ writesOne (req 2 11 64 1 [1]) 11 64 [byteOf 1] ∧
      (taken (asked (req 2 3 31 1 e.bytes) bare) (req 2 3 31 1 e.bytes) ∧ e.wellFormed ∧
        writesOne (req 2 3 31 1 e.bytes) (2 + Branch.branchB.code) (31 : Fin 32).val e.bytes ∧ bare.blocks.agenda = [] ∧
        ((bare.tables.polls.get .branchB).get 31).node = (⟨0, 240⟩ : PollEntry).node) := by
  refine ⟨⟨rfl, rfl⟩, rfl, ?_, by decide, by decide, ⟨rfl, rfl, rfl, rfl, [], rfl⟩, ⟨rfl, rfl, rfl, rfl, [], rfl⟩,
    ⟨rfl, rfl, rfl, rfl, [], rfl⟩, ⟨rfl, rfl⟩, ⟨by decide, by decide, by decide⟩, ⟨rfl, rfl, rfl, rfl, [], rfl⟩, rfl, by decide +kernel⟩
  unfold RouteEntry.wellFormed
  decide

/-- POLL-B entries given a new address: 52 left in no other entry, and left in one; an address another entry holds, one that none does, and 0. -/
theorem witness_RouteRotationAndPollWritesAreStored_addresses :
    let p := (bare.tables.polls.get .branchB).set 31 ⟨52, 4⟩
    let t := fun p => { bare.tables with polls := bare.tables.polls.set .branchB p }
    let node := fun p i => (((t p).polls.get .branchB).get i : PollEntry).node
    let two := p.set 0 ⟨52, 9⟩
    bare.blocks.agenda = [] ∧ (node p 31 ≠ 111 ∧ node p 31 ≠ 0 ∧ ∀ n : Fin 32, n ≠ 31 → node p n ≠ node p 31) ∧
      ((0 : Fin 32) ≠ 31 ∧ node two 0 = node two 31) ∧ (∀ n : Fin 32, ¬(n ≠ 31 ∧ node p n = 111)) ∧
      (∀ n : Fin 32, n ≠ 3 → node p n = 52 → n = 31) := by decide +kernel

/-- Channel 2 FRESH, bound to Branch A's node 18, and channel 3 EMPTY. -/
theorem witness_RouteRotationAndPollWritesAreStored_told :
    let g := bare.blocks.setChannel 2 { bare.blocks.channel 2 with state := .fresh }
    (g.channel 2).state = .fresh ∧ (g.channel 3).state ≠ .fresh := by decide +kernel

/-- A new binding, a forbidden move of an enabled one, and thresholds left as they are. -/
theorem witness_ChannelWritesAreStored :
    let e : ChannelConfig := ⟨true, .branchA, 111, 10, 9, 300, 250, 40, 20, 255, 32767⟩
    let s := { bare with tables := { bare.tables with channels := bare.tables.channels.set 2 { e with node := 18 } } }
    taken (asked (req 2 4 2 1 (e.bytes 2)) s) (req 2 4 2 1 (e.bytes 2)) ∧ e.wellFormed 2 ∧
      writesOne (req 2 4 2 1 (e.bytes 2)) 4 (2 : Fin 16).val (ChannelConfig.bytes 2 e) ∧
      ((s.tables.channels.get 2).enabled = true ∧ (s.tables.channels.get 2).node ≠ e.node) ∧ (bare.tables.channels.get 2).enabled = false := by
  refine ⟨⟨rfl, rfl⟩, ?_, ⟨rfl, rfl, rfl, rfl, [], by simp [req]⟩, by decide +kernel, by decide +kernel⟩
  unfold ChannelConfig.wellFormed ChannelConfig.limitsWellFormed isWord isByte isSigned
  decide

/-- A new binding of a channel, as the owner takes it. -/
theorem witness_ChannelWritesAreStored_emptied :
    let old : ChannelConfig := ⟨false, .branchA, 18, 0, 9, 300, 250, 40, 20, 10, 5⟩
    let t := { bare.tables with channels := bare.tables.channels.set 2 { old with enabled := true } }
    let new := t.channels.get 2
    ¬(old.enabled = new.enabled ∧ old.branch = new.branch ∧ old.node = new.node ∧ old.valueIndex = new.valueIndex) := by decide +kernel

/-- Chapter 4's water temperature at 245 as the high warn falls from 250 to 240: HIGH-WARN sets, and with a high warn of 260 nothing changes. -/
theorem witness_ChannelWritesAreStored_reevaluated :
    let old : ChannelConfig := ⟨true, .branchA, 18, 0, 9, 300, 250, 40, 20, 10, 5⟩
    let x : Channel := ⟨245, .fresh, Flags.clear, Flags.clear, 0, none⟩
    evaluateFlags { old with highWarn := 240 } x.value x.live ≠ x.live ∧ evaluateFlags { old with highWarn := 260 } x.value x.live = x.live ∧
      old.highWarn ≠ 240 ∧ (old.enabled = true ∧ ({ old with highWarn := 240 } : ChannelConfig).enabled = true) := by decide +kernel

theorem witness_DriveTableWritesAreStored :
    let b : DriveBind := ⟨.branchB, 125, 3, .lamp⟩
    let h : DriveShape := ⟨.inShow, 15, -32768, 4095, 7, some 15, 255, none, 255, some 0, .highAlarm⟩
    let l : DriveLimit := ⟨255, 255, 255, 1000, 255, 240, 0x80000001, 255, 255⟩
    taken (asked (req 2 5 23 1 b.bytes) bare) (req 2 5 23 1 b.bytes) ∧ b.wellFormed ∧ h.wellFormed ∧ l.wellFormed ∧
      writesOne (req 2 5 23 1 b.bytes) 5 (23 : Fin 24).val b.bytes ∧ writesOne (req 2 6 23 1 h.bytes) 6 (23 : Fin 24).val h.bytes ∧
      writesOne (req 2 7 23 1 l.bytes) 7 (23 : Fin 24).val l.bytes ∧ writesOne (req 2 8 255 1 [255]) 8 (7 * 32 + 31) [byteOf 255] ∧
      (loaded.tables.binds.get 3 ≠ b ∧ (loaded.tables.shapes.get 3).mode ≠ .off) ∧ (bare.tables.shapes.get 23).mode = .off := by
  refine ⟨⟨rfl, rfl⟩, ?_, ?_, ?_, ⟨rfl, rfl, rfl, rfl, [], by simp [req]⟩, ⟨rfl, rfl, rfl, rfl, [], by simp [req]⟩,
    ⟨rfl, rfl, rfl, rfl, [], by simp [req]⟩, ⟨rfl, rfl, rfl, rfl, [], rfl⟩, by decide +kernel, by decide +kernel⟩
  · unfold DriveBind.wellFormed
    decide
  · unfold DriveShape.wellFormed isSigned isByte
    decide
  · unfold DriveLimit.wellFormed isByte
    decide

/-- A rated current of 1001 and of 65535, and the last two CURVE points at once. -/
theorem witness_DriveTableWritesAreStored_clamped :
    let l : DriveLimit := ⟨255, 255, 255, 1000, 255, 240, 0x80000001, 255, 255⟩
    let above := fun n => req 2 7 23 1 { l with rated := n }.bytes
    let r := req 2 8 254 2 [9, 255]
    taken (asked (above 1001) bare) (above 1001) ∧ writesOne (above 1001) 7 (23 : Fin 24).val { l with rated := 1001 }.bytes ∧
      writesOne (above 65535) 7 (23 : Fin 24).val { l with rated := 65535 }.bytes ∧ taken (asked r bare) r ∧
      (r.count = [9, 255].length ∧ r.first + r.count ≤ 256 ∧ r.data = [9, 255] ++ []) :=
  ⟨⟨rfl, rfl⟩, ⟨rfl, rfl, rfl, rfl, [], by simp [req]⟩, ⟨rfl, rfl, rfl, rfl, [], by simp [req]⟩, ⟨rfl, rfl⟩, by decide⟩

/-- A changed entry and the same entry. -/
theorem witness_CueWritesAreStored :
    let e : CueConfig := ⟨true, 3, 39, 240, 239, 7, 15, .frame .branchB 125 [9, 1, 2, 3, 4, 5, 6, 7]⟩
    taken (asked (req 2 9 63 1 e.bytes) bare) (req 2 9 63 1 e.bytes) ∧ bare.agent.commit = none ∧ bare.blocks.agenda = [] ∧ e.wellFormed ∧
      writesOne (req 2 9 63 1 e.bytes) 9 (63 : Fin 64).val e.bytes ∧ bare.tables.cues.get 63 ≠ e := by
  refine ⟨⟨rfl, rfl⟩, rfl, rfl, ?_, ⟨rfl, rfl, rfl, rfl, [], by simp [req]⟩, by decide +kernel⟩
  simp only [CueConfig.wellFormed, CueAction.wellFormed]
  decide +kernel

/-- Entries at the edges of their ranges; a dry-off and a silence timeout within and beyond both ends of theirs; a MOWER entry stored, one that
shares an address with mower 1, and one that moves it. -/
theorem witness_ZoneGlobalSupplyAndMowerWritesAreStored :
    let z : ZoneConfig := ⟨.path, true, some 15, 240, some 23, 2400⟩
    let g := fun dry silence => (⟨some 7, some 11, none, dry, silence⟩ : GlobalConfig)
    let e : MowerConfig := ⟨true, .branchB, 110, 111, 2000, 100, 100⟩
    let m := loaded.tables.mowers
    (taken (asked (req 2 10 31 1 z.bytes) bare) (req 2 10 31 1 z.bytes) ∧ bare.agent.commit = none ∧ z.wellFormed ∧
        writesOne (req 2 10 31 1 z.bytes) 10 (31 : Fin 32).val z.bytes) ∧
      writesOne (req 2 14 0 1 (g 14400 2400).bytes) 14 0 (g 14400 2400).bytes ∧
      writesOne (req 2 14 0 1 (g 14401 2401).bytes) 14 0 (g 14401 2401).bytes ∧
      writesOne (req 2 14 0 1 (g 65535 7).bytes) 14 0 (g 65535 7).bytes ∧
      writesOne (req 2 13 1 1 [0x07, 0xD1, 2]) 13 Branch.branchB.code (bytes16 2001 ++ [2]) ∧
      (taken (asked (req 2 12 3 1 e.bytes) loaded) (req 2 12 3 1 e.bytes) ∧ e.wellFormed ∧
        writesOne (req 2 12 3 1 e.bytes) 12 (3 : Fin 4).val e.bytes ∧ (m.get 3).enabled = false ∧ ¬addressesShared (m.set 3 e)) ∧
      addressesShared (m.set 0 ⟨true, .branchA, 24, 50, 0, 0, 0⟩) ∧
      (¬addressesShared (m.set 1 e) ∧ (m.get 1).enabled = true ∧ (m.get 1).branch ≠ e.branch) := by
  refine ⟨⟨⟨rfl, rfl⟩, rfl, ?_, ⟨rfl, rfl, rfl, rfl, [], by simp [req]⟩⟩, ⟨rfl, rfl, rfl, rfl, [], by simp [req]⟩,
    ⟨rfl, rfl, rfl, rfl, [], by simp [req]⟩, ⟨rfl, rfl, rfl, rfl, [], by simp [req]⟩, ⟨rfl, rfl, rfl, rfl, [], by decide⟩,
    ⟨⟨rfl, rfl⟩, ?_, ⟨rfl, rfl, rfl, rfl, [], by simp [req]⟩, by decide +kernel, ?_⟩, ?_, ?_, by decide +kernel, by decide +kernel⟩
  · unfold ZoneConfig.wellFormed
    decide
  · unfold MowerConfig.wellFormed
    decide
  all_goals
    unfold addressesShared
    decide +kernel

/-- Pump 3 at its max level and one above it, set OFF and MANUAL; drive 24, and mode 4. -/
theorem witness_SetModeSetsModeAndManualLevel :
    let r := fun (x y : Byte) => req 3 0 3 0 [x, y]
    let low := { loaded with tables := { loaded.tables with limits := loaded.tables.limits.set 3 { loaded.tables.limits.get 3 with maxLevel := 200 } } }
    taken (asked (r 2 200) low) (r 2 200) ∧ (2 : Byte) = DriveMode.manual.byte ∧ (0 : Byte) = DriveMode.off.byte ∧
      ((200 : Byte).toNat ≤ (low.tables.limits.get 3).maxLevel ∧ (low.tables.limits.get 3).maxLevel < (201 : Byte).toNat) ∧
      ((low.tables.binds.get 3).kind = .pump ∧ (low.tables.shapes.get 3).boostChannel = none ∧ (low.tables.shapes.get 3).holdChannel = none ∧
        (low.tables.shapes.get 3).tripChannel = none ∧ (low.blocks.drive 3).tripped = false) ∧
      (23 < (req 3 0 24 0 [2, 255]).first ∧ taken (asked (req 3 0 24 0 [2, 255]) loaded) (req 3 0 24 0 [2, 255])) ∧ 3 < (4 : Byte).toNat :=
  ⟨⟨rfl, rfl⟩, rfl, rfl, by decide +kernel, by decide +kernel, ⟨by decide, rfl, rfl⟩, by decide⟩

theorem witness_ShowsStartAndStop :
    taken (asked (req 4 0 3 0 []) (shown ⟨3, true, 2, 2, true⟩)) (req 4 0 3 0 []) ∧ taken (asked (req 5 0 0 0 []) bare) (req 5 0 0 0 []) ∧
      3 < (req 4 0 4 0 []).first := ⟨⟨rfl, rfl⟩, ⟨rfl, rfl⟩, by decide⟩

theorem witness_ClearLatchedClearsTheNamedChannels :
    taken (asked (req 6 0 15 1 []) overloaded) (req 6 0 15 1 []) ∧ 15 + 1 ≤ 16 ∧ 15 < (req 6 0 16 0 []).first ∧
      ((req 6 0 15 2 []).first ≤ 15 ∧ 16 < 15 + (req 6 0 15 2 []).count) := ⟨⟨rfl, rfl⟩, by decide, by decide, by decide⟩

/-- Drive 3 of the worked load case with a live trip flag, with a clear one, and without a trip channel. -/
theorem witness_TripAndResetTrip :
    let s := withDrive loaded 3 { loaded.blocks.drive 3 with tripped := true }
    let named := fun (x : Bool) => { s with
      tables := { s.tables with shapes := s.tables.shapes.set 3 { s.tables.shapes.get 3 with tripChannel := some 6 } }
      blocks := s.blocks.setChannel 6 ⟨0, .fresh, ⟨x, true, false, false⟩, ⟨true, true, false, false⟩, 0, none⟩ }
    taken (asked (req 8 0 3 0 []) loaded) (req 8 0 3 0 []) ∧ taken (asked (req 7 0 3 0 []) (named true)) (req 7 0 3 0 []) ∧
      (((named true).tables.shapes.get 3).tripChannel = some 6 ∧ ((named true).tables.shapes.get 3).tripSense = .lowAlarm ∧
        ((named true).blocks.channel 6).live.lowAlarm = true ∧ ((named true).blocks.drive 3).tripped = true) ∧
      (((named false).blocks.channel 6).live.lowAlarm = false ∧ (named false).blocks.agenda = []) ∧
      (s.tables.shapes.get 3).tripChannel = none ∧ 23 < (req 7 0 24 0 []).first :=
  ⟨⟨rfl, rfl⟩, ⟨rfl, rfl⟩, by decide +kernel, by decide +kernel, by decide +kernel, by decide⟩

/-- ON; TRIPPED one round before the cool-down end; TRIPPED at it; and branch 2. -/
theorem witness_RestoreBranchSwitchesOn :
    let s := fun (n : Round) => { supplied .branchA ⟨.tripped, ⟨2244, false⟩, false, 0⟩ loaded with clock := ⟨n, 3⟩ }
    taken (asked (req 9 0 0 0 []) (s 2244)) (req 9 0 0 0 []) ∧ (loaded.blocks.slu.supply.get .branchA).state = .on ∧
      ((s 2243).blocks.slu.supply.get .branchA).coolEnd.reached 2243 = false ∧
      (((s 2244).blocks.slu.supply.get .branchA).state ≠ .on ∧
        ((s 2244).blocks.slu.supply.get .branchA).coolEnd.reached (s 2244).clock.round = true ∧ (s 2244).blocks.agenda = []) ∧
      1 < (req 9 0 2 0 []).first :=
  ⟨⟨rfl, rfl⟩, rfl, by decide, ⟨by decide, by decide, rfl⟩, by decide⟩

/-- Round 39 with auto-on yes and no, and round 38. -/
theorem witness_AutoOnActsOnce :
    let s := fun (n : Round) (yes : Bool) => { bare with
      clock := ⟨n, 0⟩, tables := { bare.tables with supply := bare.tables.supply.set .branchA ⟨1200, yes⟩ } }
    settled (s 39 true) ∧ (bare.blocks.slu.supply.get .branchA).armed = true ∧
      (bare.blocks.slu.supply.get .branchA).coolEnd.reached (39 + 1) = true ∧ ((s 39 true).tables.supply.get .branchA).autoOn = true ∧
      ((s 39 false).tables.supply.get .branchA).autoOn = false ∧ (bare.blocks.slu.supply.get .branchA).coolEnd.reached (38 + 1) = false :=
  ⟨⟨rfl, rfl⟩, rfl, by decide, rfl, rfl, by decide⟩

theorem witness_BranchOffOpensTheSwitch :
    taken (asked (req 10 0 0 0 []) loaded) (req 10 0 0 0 []) ∧ (loaded.blocks.slu.supply.get .branchA).state = .on ∧
      loaded.blocks.agenda = [] ∧ loaded.tables.loadOn .branchA (.charge 1) = true ∧
      (loaded.blocks.slu.supply.get .branchB).state = .off ∧
      ((supplied .branchA ⟨.tripped, ⟨2244, false⟩, false, 0⟩ loaded).blocks.slu.supply.get .branchA).state = .tripped ∧
      1 < (req 10 0 2 0 []).first := ⟨⟨rfl, rfl⟩, rfl, rfl, by decide +kernel, rfl, rfl, by decide⟩

/-- A fourth sample just above the high alarm, and one at the clearing bound. -/
theorem witness_FourthHighSampleTripsTheBranch :
    settled overloaded ∧ (overloaded.blocks.slu.supply.get .branchA).state = .on ∧ 3 ≤ (overloaded.blocks.slu.supply.get .branchA).tripCount ∧
      (evaluateFlags (overloaded.tables.channels.get 12) 1231 (overloaded.blocks.channel 12).live).highAlarm = true ∧
      (evaluateFlags (overloaded.tables.channels.get 12) 1230 (overloaded.blocks.channel 12).live).highAlarm = false ∧
      overloaded.blocks.up.reports + 5 ≤ 28 ∧ overloaded.blocks.up.inUse + 5 ≤ 32 :=
  ⟨⟨rfl, rfl⟩, rfl, by decide, by decide +kernel, by decide +kernel, by decide, by decide⟩

/-- Every row of the worked load case grants what its level draws, within the budget. -/
theorem witness_GrantsKeepToTheBudget :
    (∀ i, loaded.blocks.slu.rowSound loaded.tables i) ∧ loaded.blocks.slu.withinBudget loaded.tables .branchA ∧
      loaded.tables.loadOn .branchA (.drive 3) = true :=
  ⟨loaded_rowSound, loaded_loadTablesSound.2.1 .branchA, by decide +kernel⟩

/-- Mowers HALTED, MOWING, OUTBOUND and ASSIGNED; a gate held with no zone to assign, for a mower that may be dispatched and one that may not;
and a MOWER-GO in exchange. -/
theorem witness_GateRequestsHoldRecallResume :
    let s := mowing 0 { Mower.startUp with state := .halted } (mowing 1 { Mower.startUp with state := .mowing }
      (mowing 2 { Mower.startUp with state := .outbound } (mowing 3 { Mower.startUp with state := .assigned, assigned := some 9 } loaded)))
    let ready := mowing 1 { Mower.startUp with state := .docked, lastBattery := 100 } loaded
    let held := { ready with blocks := { ready.blocks with mowers := { ready.blocks.mowers with held := true } } }
    let k := held.tables.mowers.get 1
    let x := held.blocks.mower 1
    (taken (asked (req 12 0 0 0 []) s) (req 12 0 0 0 []) ∧ s.blocks.agenda = [] ∧
        (after .recall (asked (req 12 0 0 0 []) s)).blocks.agenda = [] ∧ (s.blocks.mower 0).state = .halted ∧
        (s.blocks.mower 1).state = .mowing ∧ (s.blocks.mower 2).state = .outbound ∧
        ((s.blocks.mower 3).state = .assigned ∧ (s.blocks.mower 3).chargeStanding = false ∧ (s.blocks.mower 3).assigned = some 9 ∧
          (s.blocks.line (s.tables.mowers.get 3).branch).exchange = none)) ∧
      taken (asked (req 11 0 0 0 []) s) (req 11 0 0 0 []) ∧
      (taken (asked (req 13 0 0 0 []) held) (req 13 0 0 0 []) ∧ s.blocks.mowers.held = false ∧ held.blocks.mowers.held = true ∧
        held.blocks.agenda = [] ∧
        (∀ (m : Fin 4) (i : Fin 64), i.val < held.tables.rotationLength → assignable held.tables m (held.tables.rotation.get i) held.blocks = false) ∧
        (k.enabled = true ∧ x.state = .docked ∧ k.dispatchBattery ≤ x.lastBattery ∧ held.blocks.mowers.daylight = true ∧
          held.blocks.mowers.island = false) ∧ (held.tables.mowers.get 0).enabled = false) := by
  refine ⟨⟨⟨rfl, rfl⟩, rfl, ?_, ?_, ?_, ?_, ?_⟩, ⟨rfl, rfl⟩, ⟨rfl, rfl⟩, rfl, rfl, rfl, ?_, ?_, ?_⟩ <;> decide +kernel

/-- Mower 1 ASSIGNED, its MOWER-GO in exchange. -/
theorem witness_GateRequestsHoldRecallResume_exchange :
    let e := entry 2 23 [2, 7, 45] false (.mower 1 .go) 6
    let s := mowing 1 { Mower.startUp with state := .assigned } { queued [e] with tables := loaded.tables }
    let g := (withLine s .branchA { s.blocks.line .branchA with exchange := some ⟨23, 6, .entry 6 (.mower 1 .go), 15⟩ }).blocks
    let l := g.line (loaded.tables.mowers.get 1).branch
    (g.mower 1).state = .assigned ∧ l.exchange = some ⟨23, 6, .entry 6 (.mower 1 .go), 15⟩ ∧ (∃ q ∈ l.queue, q.origin = .mower 1 .go) ∧
      ∀ q ∈ l.queue, q.origin = .mower 1 .go → q.arrival = 6 := by decide +kernel

/-- Zone 31 with 1 and 0, zone 32, data bytes 2 and none; and the three causes of start-up. -/
theorem witness_ZoneVetoSetsAndLiftsManual :
    let held := after .resetLineAssert loaded
    let restarted := { bare with agent := { bare.agent with restart := .replied } }
    taken (asked (req 14 0 31 0 [1]) bare) (req 14 0 31 0 [1]) ∧ (req 14 0 31 0 [1]).data = yesByte true :: [] ∧
      (req 14 0 31 0 [0]).data = yesByte false :: [] ∧ 31 < (req 14 0 32 0 [1]).first ∧
      (∀ x more, (req 14 0 31 0 [2]).data = x :: more → x ≠ 0 ∧ x ≠ 1) ∧ (∀ x more, (req 14 0 31 0 []).data = x :: more → x ≠ 0 ∧ x ≠ 1) ∧
      startUpBegins .powerUp bare ∧ startUpBegins .resetLine held ∧ startUpBegins .restart restarted :=
  ⟨⟨rfl, rfl⟩, rfl, rfl, by decide, fun x more h => by cases h; decide, fun x more h => (by cases h), .inl ⟨rfl, .inl rfl⟩,
    .inr (.inl ⟨rfl, .inr rfl⟩), .inr (.inr ⟨rfl, rfl, rfl⟩)⟩

/-- LOST with a zone, and the step leaves no event waiting; LOST without one; not LOST; and mower 4. -/
theorem witness_ClearMowerFreesALostMower :
    let s := mowing 1 { Mower.startUp with state := .lost, assigned := some 9 } loaded
    let none' := mowing 1 { Mower.startUp with state := .lost } loaded
    taken (asked (req 15 0 1 0 []) s) (req 15 0 1 0 []) ∧ (s.blocks.mower 1).state = .lost ∧ s.blocks.agenda = [] ∧
      ((s.blocks.mower 1).assigned = some 9 ∧ (after .clearMower (asked (req 15 0 1 0 []) s)).blocks.agenda = []) ∧
      ((none'.blocks.mower 1).state = .lost ∧ (none'.blocks.mower 1).assigned = none) ∧
      (loaded.blocks.mower 1).state ≠ .lost ∧ 3 < (req 15 0 4 0 []).first :=
  ⟨⟨rfl, rfl⟩, rfl, rfl, by decide +kernel, by decide, by decide, by decide⟩

/-- A mower that is not CHARGING with a MOWER-HOME waiting and a MOWER-GO in exchange. -/
theorem witness_ClearMowerFreesALostMower_disabling :
    let s := queued [entry 2 23 [3] true (.mower 1 .home) 4, entry 2 23 [2, 9, 45] false (.mower 1 .go) 3]
    let l := s.blocks.line .branchA
    let g := (mowing 1 { Mower.startUp with state := .outbound, commands := [held .go 3, held .home 4] }
      (withLine s .branchA { l with exchange := some ⟨23, 6, .entry 3 (.mower 1 .go), 15⟩ })).blocks
    (g.line .branchA).queue.length ≤ 16 ∧ (g.mower 1).state ≠ .charging ∧
      ((disableMower loaded.tables 1 g).1.line .branchA).queue = [entry 2 23 [2, 9, 45] false (.mower 1 .go) 3] ∧
      ((disableMower loaded.tables 1 g).1.mower 1).commands = [{ held .go 3 with former := true }] := by decide +kernel

/-- One mower record for each hypothesis, with an assigned zone and without. -/
theorem witness_AnswersMoveAMowerByItsMode :
    let x := fun (s : MowerState) (z : Option (Fin 32)) => (mowing 1 { Mower.startUp with state := s, assigned := z } loaded).blocks.mower 1
    ((x .mowing (some 9)).state ≠ .docked ∧ (x .mowing (some 9)).state ≠ .charging ∧ (x .mowing (some 9)).state ≠ .assigned ∧
        (x .mowing (some 9)).assigned = some 9) ∧
      ((x .absent none).assigned = none ∧ (x .absent none).state = .absent) ∧ (x .assigned (some 9)).state = .assigned ∧
      (x .docked none).state = .docked ∧ (x .charging none).state = .charging ∧ (x .lost (some 9)).state = .lost ∧
      (x .halted (some 9)).state = .halted ∧ (x .inbound (some 9)).state = .inbound ∧
      ((x .outbound (some 9)).state = .outbound ∧ (x .outbound (some 9)).assigned = some 9) := by decide +kernel

/-- A battery at mower 1's return threshold of 20 and one above it; an INBOUND mower of zone 9 seen in zone 10, and one seen in zone 9. -/
theorem witness_AnswersMoveAMowerByItsMode_battery :
    let s := fun x => mowing 1 { Mower.startUp with state := x, assigned := some 9 } loaded
    let seen := fun (zone : Nat) => (handle (s .inbound).tables 0 (.mowerAnswer 1 .driving zone 60) (s .inbound).blocks).1.mower 1
    ((loaded.tables.mowers.get 1).returnBattery = 20 ∧ ((s .mowing).blocks.mower 1).homeOwed = false ∧
        ((s .mowing).blocks.mower 1).commands = [] ∧ queueTakes loaded.tables 1 (s .mowing).blocks) ∧
      ((seen 10).state = .inbound ∧ ((s .inbound).blocks.mower 1).assigned = some 9 ∧ 10 ≤ 31 ∧ 10 ≠ (9 : Fin 32).val) ∧
      (seen 9).state = .inbound := by
  unfold queueTakes
  decide +kernel

/-- CUTTING in zone 9 at 60 percent from node 23, mower 1's. -/
theorem witness_AnswersMoveAMowerByItsMode_handed :
    let f : Frame := ⟨127, 23, 4, 3, [0, 0, 2, 0, 9, 0, 60, 0, 0]⟩
    let answers := fun n : Fin 4 => (loaded.tables.mowers.get n).enabled = true ∧ (loaded.tables.mowers.get n).node = f.source
    answers 1 ∧ (∀ n, n < 1 → ¬answers n) ∧ frameValues f = [((MowerMode.cutting.byte.toNat : Nat) : Int), 9, 60, 0] := by decide +kernel

theorem witness_StoreCommitsAndRestart :
    let r := req 16 0 0 0 []
    let n := req 19 0 0 0 []
    (bare.life = .running ∧ (asked r bare).agent.request = some r ∧ (asked r bare).agent.commit = none) ∧
      ((asked r (committing 0 bare)).agent.request = some r ∧ (asked r (committing 0 bare)).agent.commit.isSome = true) ∧
      ((asked n bare).agent.request = some n ∧ (asked n bare).agent.commit = none ∧ n.code = 19) ∧
      ((asked n (committing 0 bare)).agent.request = some n ∧ (asked n (committing 0 bare)).agent.commit.isSome = true) ∧
      (∃ c, (committing 6 bare).agent.commit = some c ∧ c.parts < 7) ∧ ∃ c, (committing 7 bare).agent.commit = some c ∧ 7 ≤ c.parts :=
  ⟨⟨rfl, rfl, rfl⟩, ⟨rfl, rfl⟩, ⟨rfl, rfl, rfl⟩, ⟨rfl, rfl⟩, ⟨_, rfl, by decide⟩, _, rfl, by decide⟩

/-- Timer 2, timer 1, ISLAND, no commit, a seventh and an eighth part. -/
theorem witness_RoundStartAdvancesTheClock :
    let s := fun (n : Nat) (x : Bool) => { bare with trunk := { bare.trunk with silenceTimer := n, island := x } }
    bare.life = .running ∧ (1 < (s 2 false).trunk.silenceTimer) ∧ ((s 1 false).trunk.island = false ∧ (s 1 false).trunk.silenceTimer ≤ 1) ∧
      (s 0 true).trunk.island = true ∧ bare.agent.commit = none ∧ (∃ c, (committing 6 bare).agent.commit = some c ∧ c.parts < 7) ∧
      ∃ c, (committing 7 bare).agent.commit = some c ∧ 7 ≤ c.parts :=
  ⟨rfl, by decide, by decide, rfl, rfl, ⟨_, rfl, by decide⟩, _, rfl, by decide⟩

/-- A round start that leaves no event waiting: samples above and below their ranges, a switch open and one closed, and channels EMPTY, STALE and
FRESH one round from a stale limit of 6. -/
theorem witness_RoundStartAdvancesTheClock_channels :
    let t := { loaded.tables with channels := loaded.tables.channels.set 4 { loaded.tables.channels.get 4 with staleLimit := 6 } }
    let s := { loaded with
      tables := t
      blocks := (loaded.blocks.setChannel 4 ⟨206, .fresh, Flags.clear, Flags.clear, 5, none⟩).setChannel 5
        ⟨7, .stale, Flags.clear, Flags.clear, 65535, none⟩ }
    s.blocks.agenda = [] ∧ (after (.roundStart ⟨3001, 4, 401, -41⟩ true) s).blocks.agenda = [] ∧
      (s.blocks.supplyState .branchA = .on ∧ s.blocks.supplyState .branchB ≠ .on) ∧ (s.blocks.channel 3).state = .empty ∧
      (s.blocks.channel 5).state = .stale ∧
      ((s.blocks.channel 4).state = .fresh ∧ (t.channels.get 4).staleLimit ≤ (s.blocks.channel 4).rounds + 1) := by
  refine ⟨rfl, ?_, ?_, ?_, ?_, ?_⟩ <;> decide +kernel

theorem witness_ChannelsRefreshesDryOffAndHoldsEnd :
    let s := { withDrive loaded 3 { loaded.blocks.drive 3 with roundsSinceSend := 239 } with
      tables := { loaded.tables with limits := loaded.tables.limits.set 3 { loaded.tables.limits.get 3 with refresh := 240 } } }
    let c := { s with blocks := s.blocks.setChannel 4 ⟨206, .fresh, Flags.clear, Flags.clear, 239, none⟩ }
    settled c ∧ (c.blocks.channel (boundChannel 4)).state = .fresh ∧
      (c.tables.channels.get (boundChannel 4)).staleLimit ≤ min 65535 ((c.blocks.channel (boundChannel 4)).rounds + 1) ∧
      (s.blocks.channel (boundChannel 4)).state ≠ .fresh ∧
      ((s.tables.binds.get 3).dest ≠ 0 ∧ (s.blocks.drive 3).unpowered = false ∧ (s.blocks.drive 3).sentKnown = true ∧
        0 < (s.blocks.drive 3).granted ∧ (s.tables.limits.get 3).refresh ≠ 0 ∧
        (s.tables.limits.get 3).refresh ≤ min 255 ((s.blocks.drive 3).roundsSinceSend + 1)) ∧ (s.tables.binds.get 4).dest = 0 := by
  refine ⟨⟨rfl, rfl⟩, ?_, ?_, ?_, ?_, ?_⟩ <;> decide +kernel

/-- No timer, a timer at 1 with nothing to do, a ready mower without a zone, a stint at 1 that finds a place, and one that is home owed. -/
theorem witness_RetriesAndStintsExpire :
    let idle := mowing 1 { Mower.startUp with retry := 1 } loaded
    let ready := { mowing 1 { Mower.startUp with retry := 1, state := .docked, lastBattery := 100 } loaded with
      blocks := { (mowing 1 { Mower.startUp with retry := 1, state := .docked, lastBattery := 100 } loaded).blocks with
        mowers := { (mowing 1 { Mower.startUp with retry := 1, state := .docked, lastBattery := 100 } loaded).blocks.mowers with
          daylight := true } } }
    let out := mowing 1 { Mower.startUp with state := .mowing, stint := 1 } loaded
    settled idle ∧ (loaded.blocks.mower 1).retry ≠ 1 ∧ ((idle.blocks.mower 1).retry = 1 ∧ (idle.blocks.mower 1).state = .absent) ∧
      ((ready.blocks.mower 1).retry = 1 ∧ (ready.tables.mowers.get 1).enabled = true ∧ (ready.blocks.mower 1).state = .docked ∧
        (ready.tables.mowers.get 1).dispatchBattery ≤ (ready.blocks.mower 1).lastBattery ∧ ready.blocks.mowers.held = false ∧
        ready.blocks.mowers.daylight = true ∧ ready.blocks.mowers.island = false ∧
        ∀ i : Fin 64, i.val < ready.tables.rotationLength → assignable ready.tables 1 (ready.tables.rotation.get i) ready.blocks = false) ∧
      ((out.blocks.mower 1).state = .mowing ∧ (out.blocks.mower 1).stint = 1 ∧ (out.blocks.mower 1).homeOwed = false ∧
        ¬commandHeld (out.blocks.mower 1) .home ∧ out.blocks.supplyState .branchA = .on ∧ (out.blocks.line .branchA).queue.length < 16) := by
  refine ⟨⟨rfl, rfl⟩, ?_, ?_, ?_, ?_⟩ <;> decide +kernel

theorem witness_ChannelsRefreshesDryOffAndHoldsEnd_zones :
    let s := { bare with
      tables := { bare.tables with zones := bare.tables.zones.set 20 ⟨.path, true, none, 1, some 14, 120⟩ }
      blocks := { bare.blocks.setZone 20 { bare.blocks.zone 20 with light := .holding, holdRemaining := 1 } with zones :=
        { (bare.blocks.setZone 20 { bare.blocks.zone 20 with light := .holding, holdRemaining := 1 }).zones with
          rain := .drying, dryOffRemaining := 1 } } }
    settled s ∧ s.blocks.zones.rain = .drying ∧ s.blocks.zones.dryOffRemaining ≤ 1 ∧
      ((s.blocks.zone 20).light = .holding ∧ (s.blocks.zone 20).holdRemaining ≤ 1 ∧ (s.tables.zones.get 20).lamp = some 14 ∧
        ∀ y : Fin 32, y ≠ 20 → s.tables.isPath y = true → (s.tables.zones.get y).lamp = some 14 → (s.blocks.zone y).light = .idle) ∧
      bare.blocks.zones.rain ≠ .drying ∧ (bare.blocks.zone 20).light ≠ .holding := by
  refine ⟨⟨rfl, rfl⟩, ?_, ?_, ?_, ?_, ?_⟩ <;> decide +kernel

theorem witness_SilenceBeginsIsland :
    let s := { loaded with trunk := { loaded.trunk with silenceTimer := 1 } }
    settled s ∧ s.trunk.island = false ∧ s.trunk.silenceTimer ≤ 1 ∧ ¬loaded.trunk.silenceTimer ≤ 1 := ⟨⟨rfl, rfl⟩, rfl, by decide, by decide⟩

/-- A slot index past every slot, a branch OFF, a winner, an URGENT exchange in slot 38, a pending drive, a NORMAL COMMAND, and nothing. -/
theorem witness_GeneralSlotSendsTheFirstSource :
    let c := entry 2 31 [3] true (.mower 2 .home) 7
    let n := entry 1 40 [9] false .trunk 7
    let w := declared [winner 5 39] (queued [n])
    let p := withDrive loaded 3 { loaded.blocks.drive 3 with pending := true }
    ((39 : Fin 50) < (inSlot bare 49).clock.slot ∧ 40 + 2 * (4 : Fin 5).val < (inSlot bare 49).clock.slot.val ∧
        48 < (inSlot bare 49).clock.slot.val) ∧
      (settled bare ∧ bare.clock.slot ≤ 39 ∧ bare.blocks.supplyState .branchA ≠ .on ∧ noCueAt bare .branchA 39) ∧
      (slotOpen w .branchA 39 ∧ w.blocks.cues.resolved = [winner 5 39] ∧ (winner 5 39).slot = 39) ∧
      (slotOpen (queued [c]) .branchA 38 ∧ noCueAt (queued [c]) .branchA 39 ∧ c.urgent = true ∧ c.frame.kind = 2) ∧
      (slotOpen p .branchA 39 ∧ sentNext p .branchA 3) ∧
      (slotOpen (queued [n]) .branchA 39 ∧ (∀ d, ¬updateWaits (queued [n]) .branchA d) ∧ n.urgent = false ∧ n.frame.kind = 1) ∧
      ((queued []).blocks.line .branchA).queue = [] := by
  refine ⟨by decide, ⟨⟨rfl, rfl⟩, by decide, by decide, ?_⟩, ⟨⟨⟨rfl, rfl⟩, ?_⟩, rfl, rfl⟩, ⟨⟨⟨rfl, rfl⟩, ?_⟩, ?_, rfl, rfl⟩, ⟨⟨⟨rfl, rfl⟩, ?_⟩, ?_⟩,
    ⟨⟨⟨rfl, rfl⟩, ?_⟩, ?_, rfl, rfl⟩, rfl⟩
  all_goals try unfold noCueAt
  all_goals try unfold sentNext
  all_goals try unfold updateWaits
  all_goals decide +kernel

/-- A LEVEL cue's winner for jet 2, bound to Branch A, and one for drive 0, unbound; a winner of Branch A while it is OFF. -/
theorem witness_GeneralSlotSendsTheFirstSource_levels :
    let w := fun d => ({ winner 5 39 with send := .drive d } : Resolved)
    let s := declared [w 2] loaded
    let off := declared [winner 5 39] bare
    (slotOpen s .branchA 39 ∧ s.blocks.cues.resolved = [w 2] ∧ (w 2).branch = .branchA ∧ (w 2).slot = 39 ∧
        (s.tables.binds.get 2).dest ≠ 0 ∧ (s.tables.binds.get 2).branch = .branchA) ∧
      (slotOpen (declared [w 0] loaded) .branchA 39 ∧ (s.tables.binds.get 0).dest = 0) ∧
      (settled off ∧ off.clock.slot ≤ 39 ∧ off.blocks.supplyState .branchA ≠ .on ∧ off.blocks.cues.resolved = [winner 5 39] ∧
        (winner 5 39).branch = .branchA ∧ (winner 5 39).slot = 39) := by
  refine ⟨⟨⟨⟨rfl, rfl⟩, ?_⟩, ?_⟩, ⟨⟨⟨rfl, rfl⟩, ?_⟩, ?_⟩, ⟨rfl, rfl⟩, ?_⟩ <;> decide +kernel

/-- A branch OFF, a POLL waiting, an entry due, and none. -/
theorem witness_PollSlotSendsTheOldestPoll :
    let s := queued []
    let p := withLine s .branchA { s.blocks.line .branchA with pollNow := [⟨52, 126, 3, []⟩] }
    let d := { s with tables := { s.tables with polls := s.tables.polls.set .branchA (s.tables.polls.forA.set 31 ⟨52, 240⟩) } }
    (settled bare ∧ bare.clock.slot ≤ 48 ∧ bare.blocks.supplyState .branchA ≠ .on) ∧
      (slotOpen p .branchA 48 ∧ (p.blocks.line .branchA).pollNow = [⟨52, 126, 3, []⟩]) ∧
      (slotOpen d .branchA 48 ∧ pollDue d .branchA 31 ∧ ∀ j, pollDue d .branchA j → j = 31) ∧ ∀ i, ¬pollDue s .branchA i := by
  refine ⟨⟨⟨rfl, rfl⟩, by decide, by decide⟩, ⟨⟨⟨rfl, rfl⟩, ?_⟩, rfl⟩, ⟨⟨⟨rfl, rfl⟩, ?_⟩, ?_, ?_⟩, ?_⟩
  all_goals try unfold pollDue
  all_goals decide +kernel

theorem witness_CueDrawStepsTheCountdowns :
    let s := shown ⟨0, false, 0, 0, false⟩
    settled s ∧ (inSlot s 48).clock.slot.val ≤ 48 ∧ (cueRuns s 10 ∧ (s.blocks.cueRun 10).countdown = 0) ∧ ¬cueRuns s 12 ∧
      (cueRuns (shown ⟨1, true, 1, 1, false⟩) 10 ∧ 0 < ((shown ⟨1, true, 1, 1, false⟩).blocks.cueRun 10).countdown) := by
  refine ⟨⟨rfl, rfl⟩, by decide, ?_, ?_, ?_⟩ <;> unfold cueRuns <;> decide +kernel

/-- Cue 11 wins, cue 10 loses within and beyond its tolerance; the branch OFF; a withdrawn cue. -/
theorem witness_CueResolutionSettlesEachCue :
    let s := shown ⟨3, true, 1, 1, true⟩
    let off := supplied .branchA ⟨.off, ⟨40, false⟩, false, 0⟩ s
    let gone := { s with blocks := { s.blocks with cues := { s.blocks.cues with running := s.blocks.cues.running.set 0 false } } }
    settled s ∧ s.clock.slot.val ≤ ((12 : Fin 40).val + 48) % 50 ∧ (drawnFor s .branchA 12 10 ∧ cueRuns s 10 ∧ claimsSlot s 10) ∧ (drawnFor s .branchA 12 11 ∧ claimsSlot s 11 ∧ above s 11 10) ∧
      ¬drawnFor s .branchA 12 12 ∧ ((s.blocks.cueRun 10).postponed + 1 ≤ (s.tables.cues.get 10).tolerance) ∧
      ¬(((shown ⟨3, true, 2, 2, true⟩).blocks.cueRun 10).postponed + 1 ≤ (s.tables.cues.get 10).tolerance) ∧
      off.blocks.supplyState .branchA ≠ .on ∧ ¬cueRuns gone 10 := by
  refine ⟨⟨rfl, rfl⟩, by decide, ⟨⟨rfl, rfl, rfl⟩, ⟨rfl, rfl⟩, trivial⟩, ⟨⟨rfl, rfl, rfl⟩, ⟨by decide, rfl⟩, ?_⟩, ?_, ?_, ?_, by decide, ?_⟩
  · unfold above
    decide +kernel
  · exact fun h => absurd h.1 (by decide +kernel)
  · decide +kernel
  · decide +kernel
  · exact fun h => absurd h.2 (by decide +kernel)

/-- Nothing sent; a COMMAND, a drive update, an entry at its first and at its second collision. -/
theorem witness_EchoesAreJudged :
    let e := entry 1 40 [9] false .trunk 7
    let twice := { e with collided := true }
    let s := sendingIn ⟨e.frame, 12, .entry 7, 0, false⟩ (queued [e])
    let d := sendingIn ⟨setLevelFrame ⟨.branchA, 16, 0, .pump⟩ 171, 12, .drive 3, 171, false⟩ loaded
    settled s ∧ (bare.blocks.line .branchA).sending = none ∧
      ((s.blocks.line .branchA).queue.find? (fun y => decide (y.arrival = e.arrival)) = some e ∧ (s.blocks.line .branchA).exchange = none) ∧
      ((d.blocks.line .branchA).sending.map fun x => decide (x.level = (d.blocks.drive 3).granted)) = some true ∧
      ((queued [twice]).blocks.line .branchA).queue.head? = some twice := by
  refine ⟨⟨rfl, rfl⟩, rfl, ⟨?_, rfl⟩, ?_, rfl⟩ <;> decide +kernel

/-- A FRAME cue and a LEVEL cue being sent, within and beyond tolerance; a POLL; and a MOWER-GO, a MOWER-HOME and CHARGE at their second collision. -/
theorem witness_EchoesAreJudged_owners :
    let w := winner 10 12
    let lw : Resolved := ⟨11, .branchA, 12, .drive 2, false⟩
    let s := sendingIn ⟨⟨60, 127, 1, 0, [9, 1, 2]⟩, 12, .cue w, 0, false⟩ (shown ⟨3, true, 1, 1, false⟩)
    let level := sendingIn ⟨⟨30, 127, 1, 0, [1, 0, 191]⟩, 12, .cue lw, 191, false⟩ (shown ⟨3, true, 2, 1, false⟩)
    let poll := sendingIn ⟨⟨52, 127, 3, 5, []⟩, 42, .poll, 0, false⟩ (queued [])
    let e := fun c n => ({ entry 2 23 [3] false (.mower 1 c) n with collided := true } : QueueEntry)
    let twice := fun (x : Mower) c => mowing 1 x { sendingIn ⟨(e c 6).frame, 12, .entry 6, 0, false⟩ (queued [e c 6]) with tables := loaded.tables }
    let source := fun (s : State) => (s.blocks.line .branchA).sending.map fun x => x.source
    settled s ∧ (source s = some (.cue w) ∧ w.send = .frame ⟨60, 127, 1, 0, [9, 1, 2]⟩ ∧
        (s.blocks.cueRun 10).postponed + 1 ≤ (s.tables.cues.get 10).tolerance) ∧
      (source level = some (.cue lw) ∧ lw.send = .drive 2 ∧ (level.blocks.drive 2).granted = 191 ∧
        ¬(level.blocks.cueRun 11).postponed + 1 ≤ (level.tables.cues.get 11).tolerance) ∧
      source poll = some .poll ∧
      (∀ c ∈ [MowerCommand.go, .home, .charge],
        ((twice Mower.startUp c).blocks.line .branchA).queue.find? (fun y => decide (y.arrival = 6)) = some (e c 6) ∧
          source (twice Mower.startUp c) = some (.entry 6)) ∧
      (∃ h ∈ ((twice { Mower.startUp with state := .charging, commands := [held .charge 6] } .charge).blocks.mower 1).commands,
        h.id = ⟨.charge, .branchA, 6⟩ ∧ h.former = false ∧ h.on = true) ∧
      ¬ownCommand ((twice Mower.startUp .go).blocks.mower 1) ⟨.go, .branchA, 6⟩ ∧
      ownCommand ((twice { Mower.startUp with state := .assigned, commands := [held .go 6] } .go).blocks.mower 1) ⟨.go, .branchA, 6⟩ ∧
      ((twice { Mower.startUp with state := .assigned } .go).blocks.mower 1).state = .assigned ∧ (loaded.tables.mowers.get 1).enabled = true := by
  refine ⟨⟨rfl, rfl⟩, ?_, ?_, ?_, ?_, ?_, ?_, ?_⟩ <;> decide +kernel

/-- An exchange with a polled node and with one not polled; a slot of the part's own, and another. -/
theorem witness_AnswerSlotsAreJudged :
    let x : Exchange := ⟨23, 6, .entry 6 .trunk, 15⟩
    let s := withLine (queued []) .branchA { (queued []).blocks.line .branchA with exchange := some x, sentIn := some 14 }
    let f : Frame := ⟨127, 23, 4, 6, [0]⟩
    settled s ∧ ((s.blocks.line .branchA).exchange = some x ∧ (s.blocks.line .branchA).sending = none) ∧
      (∀ i, ((s.tables.polls.get .branchA).get i).node ≠ x.dest) ∧ (f.kind = 4 ∧ f.source = x.dest ∧ f.tag = x.tag ∧ f.payload.length % 2 = 1) ∧
      (bare.blocks.line .branchA).exchange = none ∧ (s.blocks.line .branchA).sentIn = some 14 := by
  refine ⟨⟨rfl, rfl⟩, ⟨rfl, rfl⟩, ?_, ?_, rfl, rfl⟩ <;> decide +kernel

/-- A fault of each kind heard; and an answer whose value reaches channel 2, the step leaving no event waiting. -/
theorem witness_AnswerSlotsAreJudged_heard :
    let x : Exchange := ⟨52, 6, .pollTable, 43⟩
    let f : Frame := ⟨127, 52, 4, 6, [0, 0, 3, 0, 7]⟩
    let q := withLine (queued []) .branchA { (queued []).blocks.line .branchA with exchange := some x }
    let s := { q with
      tables := { q.tables with
        channels := q.tables.channels.set 2 ⟨true, .branchA, 52, 1, 9, 300, 250, 40, 20, 10, 5⟩
        polls := q.tables.polls.set .branchA (q.tables.polls.forA.set 2 ⟨52, 4⟩) } }
    hearsFault [⟨1, true⟩] ∧ hearsFault [⟨0xC3, true⟩] ∧ hearsFault [⟨0xC3, true⟩, ⟨25, true⟩] ∧
      hearsFault [⟨0xC3, true⟩, ⟨0, true⟩, ⟨127, true⟩] ∧
      hearsFault [⟨0xC3, true⟩, ⟨0, true⟩, ⟨127, true⟩, ⟨52, true⟩, ⟨0x46, true⟩, ⟨0, true⟩, ⟨0, true⟩] ∧
      settled s ∧ ((s.tables.polls.get .branchA).get 2).node = x.dest ∧ f.wellFormed ∧ bindsTo s.tables .branchA f 2 7 ∧
      (after (.answerSlotJudged .branchA f.onWire) s).blocks.agenda = [] := by
  refine ⟨.inl ⟨_, _, rfl, by decide⟩, .inr ⟨_, _, rfl, rfl, .inl rfl⟩, .inr ⟨_, _, rfl, rfl, .inr ⟨_, _, rfl, .inl (by decide)⟩⟩,
    .inr ⟨_, _, rfl, rfl, .inr ⟨_, _, rfl, .inr ⟨by decide, .inl (by decide)⟩⟩⟩,
    .inr ⟨_, _, rfl, rfl, .inr ⟨_, _, rfl, .inr ⟨by decide, .inr ⟨_, [], (List.append_nil _).symm, rfl, .inr (by decide +kernel)⟩⟩⟩⟩,
    ⟨rfl, rfl⟩, by decide +kernel, ?_, ⟨by decide, by decide +kernel, by decide +kernel, by decide +kernel, by decide +kernel⟩, by decide +kernel⟩
  unfold Frame.wellFormed
  decide

theorem witness_StopsAndStartUps :
    loaded.life = .running ∧ (after .resetLineAssert loaded).life = .held ∧ (after .powerLoss loaded).life = .unpowered false ∧
      (after .resetLineAssert (after .powerLoss loaded)).life = .unpowered true ∧
      (startUpBegins .resetLine (after .resetLineAssert loaded) ∧ ¬startUpBegins .powerUp (after .resetLineAssert loaded)) ∧
      ({ bare with agent := { bare.agent with restart := .replied } } : State).agent.restart = .replied ∧ bare.agent.restart ≠ .replied := by
  unfold startUpBegins
  decide +kernel

/-- Drive 0 in AUTO on channel 0, seen FRESH in a report. -/
theorem witness_CurveLevelsFollowTheSegments :
    (((driven 0 ⟨.branchA, 9, 0, .pump⟩ .auto (plainLimits 10 0) .water 0 bare).tables.shapes.get 0).mode = .auto ∧
      (bare.blocks.view (some ⟨0, 187, .fresh, Flags.clear, .newValue⟩) 0).state = .fresh) ∧
    (0 < 10 ∧ (39 : Int) - 40 < 0 ∧ 31 * ((10 : Nat) : Int) ≤ 350 - 40) ∧
      (((30 : Fin 31).val : Int) * (10 : Nat) ≤ 349 - 40 ∧ (349 : Int) - 40 < ((30 : Fin 31).val + 1 : Int) * (10 : Nat)) := by
  decide +kernel

/-- Jet 2 of the worked load case in MANUAL at 255, an occupied zone in its spray set, a max level of 180, a live trip flag, and its branch ON. -/
theorem witness_LevelsFollowTheStagesAndAreHandedOver :
    let t := { loaded.tables with
      shapes := loaded.tables.shapes.set 2 { loaded.tables.shapes.get 2 with mode := .manual, tripChannel := some 6 }
      limits := loaded.tables.limits.set 2 { loaded.tables.limits.get 2 with spraySet := 0x200, sprayCap := 120, maxLevel := 100 } }
    let g := withDrive { loaded with blocks := loaded.blocks.setZone 9 { loaded.blocks.zone 9 with occupants := 2 } } 2
      { loaded.blocks.drive 2 with manual := 255 }
    let view := seenAs g.blocks (some ⟨6, 3, .fresh, ⟨true, false, false, false⟩, .newValue⟩)
    let three := boostedAndHeld (t.shapes.get 2) view (startingLevel t g.blocks 2 view)
    (t.shapes.get 2).mode ≠ .off ∧ three = 255 ∧ (t.limits.get 2).sprayCap < three ∧
      ((t.binds.get 2).kind = .jet ∧ (t.limits.get 2).spraySet.getLsbD 9 = true ∧ (g.blocks.zone 9).occupants ≠ 0) ∧
      (t.limits.get 2).maxLevel < 120 ∧ (view 6).2.2.lowAlarm = true ∧ (g.blocks.drive 2).tripped = false ∧
      (g.blocks.drive 2).sprayCapped = false ∧ (g.blocks.drive 2).overMax = false ∧
      (g.blocks.up.reports + 3 ≤ 28 ∧ g.blocks.up.inUse + 3 ≤ 32) ∧
      ((t.binds.get 2).dest ≠ 0 ∧ (g.blocks.drive 2).unpowered = false ∧ g.blocks.supplyState (t.binds.get 2).branch = .on ∧
        (g.blocks.slu.drives.get 2).wanted ≠ 0) := by
  refine ⟨?_, ?_, ?_, ?_, ?_, ?_, ?_, ?_, ?_, ?_, ?_⟩ <;> decide +kernel

/-- Rain that comes, a wind that changes, an ambient channel that goes dark; a zone occupied as RAIN enters; a path counted up from 0, up and
down between, and down to 0; and a mower whose position moves it off the path. -/
theorem witness_ZonesFollowTheirChannelsAndMowers :
    let t := { crossing.tables with globals := ⟨some 7, some 11, some 10, 480, 60⟩ }
    let g := crossing.blocks
    let high : ChannelReport := ⟨7, 100, .fresh, ⟨false, false, true, false⟩, .newValue⟩
    let wet := (after (.zoneVeto) (asked (req 14 0 9 0 [1]) { crossing with blocks := g.setZone 9 { g.zone 9 with occupants := 2 } }))
    (t.globals.rainChannel = some high.channel ∧ high.live.highWarn = true ∧ g.zones.rain ≠ .raining) ∧
      (t.globals.windChannel = some 10 ∧ g.zones.windy = false) ∧ (t.globals.ambientChannel = some 11 ∧ g.zones.dark = false) ∧
      ((g.zone 9).rain = false ∧ (wet.blocks.zone 9).occupiedBy 1 = true ∧ vetoSet (wet.blocks.zone 9) .manual = true) ∧
      ((t.zones.get 20).enabled = true ∧ (t.zones.get 20).kind = .path ∧ (t.zones.get 20).lamp = some 7) ∧
      ((g.zone 20).transitCount = 1 ∧ (g.zone 9).transitCount = 0 ∧ (g.zone 20).light = .idle) ∧
      (g.zones.transitZones.get 1 = some 20 ∧ (t.zones.get 9).kind ≠ .path) := by
  refine ⟨?_, ?_, ?_, ?_, ?_, ?_, ?_⟩ <;> decide +kernel

/-- Mower 1 DOCKED with a full battery: it may be dispatched, with zone 9 to assign and with none; its branch takes a frame, and with 16
entries takes none. -/
theorem witness_DispatchOutcomesAndChargingMoveMowers :
    let s := mowing 1 { Mower.startUp with state := .docked, lastBattery := 100 } loaded
    let t := { s.tables with zones := s.tables.zones.set 9 ⟨.lawn, true, none, 45, none, 0⟩, rotation := s.tables.rotation.set 0 9 }
    let full := withLine s .branchA { s.blocks.line .branchA with queue := List.replicate 16 (entry 1 40 [9] false .trunk 7) }
    mayBeSent t 1 s.blocks ∧ ¬mayBeSent t 0 s.blocks ∧
      (0 < t.rotationLength ∧ canAssign t 1 (t.rotation.get (Fin.ofNat 64 ((s.blocks.mowers.pointer + 0) % t.rotationLength))) s.blocks) ∧
      (∀ k, k < s.tables.rotationLength →
        ¬canAssign s.tables 1 (s.tables.rotation.get (Fin.ofNat 64 ((s.blocks.mowers.pointer + k) % s.tables.rotationLength))) s.blocks) ∧
      ((s.blocks.mower 1).chargeStanding = false ∧ queueTakes t 1 s.blocks ∧ ¬queueTakes t 1 full.blocks) := by
  refine ⟨?_, ?_, ⟨by decide +kernel, ?_⟩, fun k hk h => ?_, ?_⟩
  · unfold mayBeSent
    decide +kernel
  · unfold mayBeSent
    decide +kernel
  · exact ⟨by decide +kernel, by decide +kernel, fun v => by cases v <;> decide +kernel, by decide +kernel, by decide +kernel⟩
  · have : k = 0 := Nat.lt_one_iff.mp hk
    subst this
    exact absurd h.2.1 (by decide +kernel)
  · unfold queueTakes
    decide +kernel

/-- Outcomes for mowers ASSIGNED, MOWING and CHARGING; a request where the current is free, where it is not, and on a branch OFF; pushes with the
row on and off. -/
theorem witness_DispatchOutcomesAndChargingMoveMowers_commands :
    let at1 := fun (x : Mower) => (mowing 1 x loaded).blocks.mower 1
    let row := fun (n : Nat) => loaded.blocks.slu.setRow (.charge 1) ⟨.charge, n, n, 150 * n, false, false⟩
    (loaded.tables.mowers.get 1).enabled = true ∧ queueTakes loaded.tables 1 loaded.blocks ∧
      ((at1 { Mower.startUp with state := .assigned, assigned := some 9, returnReasons := [.recall] }).state = .assigned) ∧
      ownCommand (at1 { Mower.startUp with state := .assigned, commands := [held .go 6] }) ⟨.go, .branchA, 6⟩ ∧
      (ownCommand (at1 { Mower.startUp with state := .mowing, commands := [held .home 6] }) ⟨.home, .branchA, 6⟩ ∧
        ¬ownCommand (at1 { Mower.startUp with commands := [{ held .home 6 with former := true }] }) ⟨.home, .branchA, 6⟩) ∧
      (∃ h ∈ (at1 { Mower.startUp with state := .charging, commands := [held .charge 6] }).commands,
        h.id = ⟨.charge, .branchA, 6⟩ ∧ h.former = false ∧ h.on = true) ∧
      ((at1 { Mower.startUp with state := .docked, lastBattery := 99 }).lastBattery < 100 ∧ (row 0).charges.get 1 = ⟨.charge, 0, 0, 0, false, false⟩ ∧
        (loaded.tables.mowers.get 1).chargeCurrent ≤ (row 0).freeFor loaded.tables .branchA (.charge 1)) ∧
      ({ row 0 with supplyLow := true }.freeFor loaded.tables .branchA (.charge 1) < (loaded.tables.mowers.get 1).chargeCurrent) ∧
      loaded.blocks.supplyState .branchB ≠ .on ∧ ((row 1).charges.get 1).granted = 1 ∧
      (at1 { Mower.startUp with state := .docked, chargeStanding := true }).chargeStanding = true := by
  unfold queueTakes
  refine ⟨?_, ?_, ?_, ?_, ?_, ?_, ?_, ?_, ?_⟩ <;> decide +kernel

/-- Mower 1's record is the one that node 23 of Branch A concerns, and its dock 24; MOWER-GO waits, is in exchange, or is in no queue. -/
theorem witness_DispatchOutcomesAndChargingMoveMowers_presence :
    let concerns := fun (node : Byte) (n : Fin 4) => (loaded.tables.mowers.get n).enabled = true ∧
      (loaded.tables.mowers.get n).branch = .branchA ∧ ((loaded.tables.mowers.get n).node = node ∨ (loaded.tables.mowers.get n).dock = node)
    let e := entry 2 23 [2, 7, 45] false (.mower 1 .go) 6
    let l := (queued [e]).blocks.line .branchA
    let x : Exchange := ⟨23, 6, .entry 6 (.mower 1 .go), 15⟩
    let at1 := fun s => (mowing 1 { Mower.startUp with state := s, assigned := some 9 } loaded).blocks.mower 1
    (concerns 23 1 ∧ ∀ n, concerns 23 n → n = 1) ∧ (concerns 24 1 ∧ (loaded.tables.mowers.get 1).node ≠ 24) ∧ (∀ n, ¬concerns 25 n) ∧
      (e ∈ l.queue ∧ e.origin = .mower 1 .go ∧ l.exchange = none ∧ x.origin = .entry e.arrival e.origin) ∧
      (∀ s, (at1 s).state = s ∧ (at1 s).assigned = some 9) ∧ (at1 .outbound).homeOwed = false := by
  refine ⟨?_, ?_, ?_, ?_, fun s => ⟨rfl, rfl⟩, ?_⟩ <;> decide +kernel

end Sys2Proof.Tests
end

section
/-! SUPPORT. The Measurement Unit (chapter 4): CLEAR-LATCHED on a range of channels (R72), and the live flags at a new value (R68). -/

namespace Sys2Proof.Machine

/-! ## Requests answered -/

/-- The model's answer without data is the statements' finished request with that reply. -/
theorem answer_eq_replied (r : Request) (res : Result) (s : State) : answer r res s = replied s (replyTo r res.code 0 []) := rfl

theorem onCode_of_taken {code : Nat} {f : Request → State → State} {s : State} {r : Request} (ht : taken s r) (hc : r.code = code) :
    onCode code f s = .next (f r s) := by
  obtain ⟨hrun, hreq⟩ := ht
  simp [onCode, onRequest, whenRunning, hrun, hreq, hc]

/-! ## CLEAR-LATCHED (R72) -/

theorem exec_clearLatched_of_taken {s : State} {r : Request} (ht : taken s r) (hc : r.code = 6) :
    exec .clearLatched s = .next (takeClearLatched r s) :=
  onCode_of_taken ht hc

/-- The channels with those numbered `first` up to `first + n - 1` cleared of latched flags that are not live (R72). -/
def clearedChannels (first n : Nat) (g : Blocks) : Table Channel 16 :=
  Table.build 16 fun c =>
    if first ≤ c.val ∧ c.val < first + n then { g.channel c with latched := (g.channel c).live } else g.channel c

theorem get_clearedChannels (first n : Nat) (g : Blocks) (c : Fin 16) :
    (clearedChannels first n g).get c =
      if first ≤ c.val ∧ c.val < first + n then { g.channel c with latched := (g.channel c).live } else g.channel c :=
  Table.get_build _ _ _

theorem clearedChannels_zero (first : Nat) (g : Blocks) : clearedChannels first 0 g = g.channels :=
  Table.ext_get fun c => by
    rw [get_clearedChannels, if_neg (by omega)]
    rfl

/-- Clearing the channel that follows a cleared range clears the range longer by one. -/
theorem clearLatched_clearedChannels {first n : Nat} (h : first + n < 16) (g : Blocks) :
    clearLatched ⟨first + n, h⟩ { g with channels := clearedChannels first n g } =
      { g with channels := clearedChannels first (n + 1) g } := by
  have hnext : (clearedChannels first n g).get ⟨first + n, h⟩ = g.channel ⟨first + n, h⟩ := by
    rw [get_clearedChannels, if_neg (by simp)]
  refine congrArg (fun channels => { g with channels := channels }) (Table.ext_get fun c => ?_)
  by_cases hc : c = ⟨first + n, h⟩
  · subst hc
    simp [Table.get_set_self, Blocks.channel, hnext, get_clearedChannels]
  · have hne : c.val ≠ first + n := fun e => hc (Fin.ext e)
    have hrange : (first ≤ c.val ∧ c.val < first + (n + 1)) ↔ (first ≤ c.val ∧ c.val < first + n) := by omega
    simp only [Table.get_set_other _ _ hc, get_clearedChannels, hrange]

/-- CLEAR-LATCHED's channels, taken one after another, are the whole range cleared, and no other part of the blocks is changed. -/
theorem foldl_clearLatched (first : Nat) (g : Blocks) :
    ∀ n, first + n ≤ 16 → (List.range n).foldl (fun h i => clearLatched (Fin.ofNat 16 (first + i)) h) g =
      { g with channels := clearedChannels first n g }
  | 0, _ => by rw [clearedChannels_zero]; rfl
  | n + 1, h => by
    have hn : Fin.ofNat 16 (first + n) = ⟨first + n, by omega⟩ := Fin.ext (Nat.mod_eq_of_lt (by omega))
    rw [List.range_succ, List.foldl_append, foldl_clearLatched first g n (by omega), List.foldl_cons, List.foldl_nil, hn,
      clearLatched_clearedChannels]

theorem takeClearLatched_of_range {r : Request} (hfirst : r.first ≤ 15) (hrange : r.first + r.count ≤ 16) (s : State) :
    takeClearLatched r s =
      replied { s with blocks := { s.blocks with channels := clearedChannels r.first r.count s.blocks } } (replyTo r 0 0 []) := by
  rw [takeClearLatched, if_neg (by omega), if_neg (by omega), foldl_clearLatched _ _ _ hrange, answer_eq_replied]
  rfl

/-- Settles O33, by the three branches of `takeClearLatched`; in the last, by induction on the number of channels named. -/
theorem clearLatchedClearsTheNamedChannels : Obligations.ClearLatchedClearsTheNamedChannels := by
  unfold Obligations.ClearLatchedClearsTheNamedChannels
  intro s r ht hc
  rw [exec_clearLatched_of_taken ht hc]
  refine ⟨fun hfirst => ?_, fun hfirst hrange => ?_, fun hfirst hrange => ?_⟩
  · rw [takeClearLatched, if_pos hfirst, answer_eq_replied]
    rfl
  · rw [takeClearLatched, if_neg (by omega), if_pos hrange, answer_eq_replied]
    rfl
  · exact ⟨clearedChannels r.first r.count s.blocks, by rw [takeClearLatched_of_range hfirst hrange], get_clearedChannels _ _ _⟩

/-! ## The live flags (R68) -/

theorem highFlag_iff (v t : Int) (h : Nat) (was : Bool) :
    highFlag v t h was = true ↔ (was = false ∧ t < v) ∨ (was = true ∧ ¬v ≤ t - h) := by
  cases was with
  | false => simp [highFlag]
  | true => simp [highFlag]

theorem lowFlag_iff (v t : Int) (h : Nat) (was : Bool) :
    lowFlag v t h was = true ↔ (was = false ∧ v < t) ∨ (was = true ∧ ¬t + h ≤ v) := by
  cases was with
  | false => simp [lowFlag]
  | true => simp [lowFlag]

/-! ## The live flags a channel is left with (R63, R65, R60) -/

@[simp] theorem postFlag_channel (c : Fin 16) (v n : Int) (was is : Bool) (g : Blocks) (e : Fin 16) :
    (postFlag c v n was is g).channel e = g.channel e := by
  unfold postFlag
  split
  · rfl
  · rfl

/-- CHANNEL-FLAG notices change no channel's record. -/
@[simp] theorem postFlags_channel (c : Fin 16) (v : Int) (was is : Flags) (g : Blocks) (e : Fin 16) :
    (postFlags c v was is g).channel e = g.channel e := by
  simp only [postFlags, postFlag_channel]

theorem takeValue_live (t : Tables) (c : Fin 16) (v : Int) (g : Blocks) :
    ((takeValue t c v g).1.channel c).live = evaluateFlags (t.channels.get c) v (g.channel c).live := by
  simp only [takeValue, postFlags_channel, Blocks.setChannel_channel_self]

theorem makeStale_live (c : Fin 16) (g : Blocks) : ((makeStale c g).1.channel c).live = (g.channel c).live := by
  simp only [makeStale]
  split
  · simp only [Blocks.setChannel_channel_self]
  · rfl

theorem emptyChannel_live (c : Fin 16) (g : Blocks) : ((emptyChannel c g).1.channel c).live = Flags.clear := by
  simp only [emptyChannel, postFlags_channel, Blocks.setChannel_channel_self]

/-- Settles O56: each flag by `highFlag_iff` or `lowFlag_iff`, and the flags kept by what each act leaves in the channel's record. -/
theorem liveFlagsFollowTheHysteresis : Obligations.LiveFlagsFollowTheHysteresis := by
  unfold Obligations.LiveFlagsFollowTheHysteresis
  refine ⟨fun k v was => ⟨?_, ?_, ?_, ?_⟩, fun t c v g => ⟨?_, ?_, ?_⟩⟩
  · exact highFlag_iff v k.highAlarm k.hysteresis was.highAlarm
  · exact highFlag_iff v k.highWarn k.hysteresis was.highWarn
  · exact lowFlag_iff v k.lowWarn k.hysteresis was.lowWarn
  · exact lowFlag_iff v k.lowAlarm k.hysteresis was.lowAlarm
  · exact takeValue_live t c v g
  · exact makeStale_live c g
  · exact emptyChannel_live c g

end Sys2Proof.Machine
end

section
/-! SUPPORT. The curves of the Drive Unit (chapter 5): the level of a curve in each range of the index value (R86). -/

namespace Sys2Proof.Machine

/-! ## A segment of a curve (R86) -/

/-- The level `f` 256ths of the way from `a` to `b`, the part added truncated toward zero (R86). -/
def segmentLevel (a b f : Nat) : Int := a + (((b : Int) - a) * f).tdiv 256

/-- A part of fewer than 256 parts in 256 of a rise lies between nothing and the rise. -/
theorem tdiv_part_of_rise {x : Int} {f : Nat} (hx : 0 ≤ x) (hf : f < 256) :
    0 ≤ (x * f).tdiv 256 ∧ (x * f).tdiv 256 ≤ x := by
  have hpart : 0 ≤ x * f := Int.mul_nonneg hx (Int.natCast_nonneg f)
  have hwhole : x * f ≤ x * 256 := Int.mul_le_mul_of_nonneg_left (by omega) hx
  rw [Int.tdiv_eq_ediv_of_nonneg hpart]
  omega

/-- A rest below the step is fewer than 256 parts in 256 of it. -/
theorem part_lt_256 {r step : Nat} (hr : r < step) : r * 256 / step < 256 :=
  Nat.div_lt_of_lt_mul (Nat.mul_lt_mul_of_pos_right hr (by decide))

/-- Because f is at most 255, the level lies between the segment's two points; a falling segment loses what a rising one gains. -/
theorem segmentLevel_between (a b : Nat) {f : Nat} (hf : f < 256) :
    (min a b : Nat) ≤ segmentLevel a b f ∧ segmentLevel a b f ≤ (max a b : Nat) := by
  unfold segmentLevel
  rcases Nat.le_total a b with hab | hab
  · have hpart := tdiv_part_of_rise (x := (b : Int) - a) (by omega) hf
    omega
  · have hpart := tdiv_part_of_rise (x := (a : Int) - b) (by omega) hf
    have hneg : (((b : Int) - a) * f).tdiv 256 = -(((a : Int) - b) * f).tdiv 256 := by
      rw [← Int.neg_tdiv, ← Int.neg_mul, Int.neg_sub]
    omega

/-! ## The ranges of the index value (R86) -/

theorem curveLevel_below {base v : Int} (points : Table Nat 32) (step : Nat) (h : v - base < 0) :
    curveLevel points base step v = points.get 0 := by
  rw [curveLevel, if_pos h]

theorem curveLevel_above {base v : Int} {step : Nat} (points : Table Nat 32) (h : 31 * (step : Int) ≤ v - base) :
    curveLevel points base step v = points.get 31 := by
  rw [curveLevel, if_neg (by omega), if_pos h]

/-- `r` above the start of segment `i`, the segment and the part of it are the quotient and the rest of the distance by the step. -/
theorem curveLevel_at {base v : Int} {step r : Nat} (points : Table Nat 32) (i : Fin 31) (hr : r < step)
    (hd : v - base = (i.val * step + r : Nat)) :
    (curveLevel points base step v : Int) =
      segmentLevel (points.get i.castSucc) (points.get i.succ) (r * 256 / step) := by
  have hfar : i.val * step + r < 31 * step :=
    calc i.val * step + r < (i.val + 1) * step := by rw [Nat.succ_mul]; omega
      _ ≤ 31 * step := Nat.mul_le_mul_right step i.isLt
  have hquot : (i.val * step + r) / step = i.val := by
    rw [Nat.mul_comm, Nat.mul_add_div (by omega), Nat.div_eq_of_lt hr, Nat.add_zero]
  have hrest : (i.val * step + r) % step = r := by rw [Nat.mul_add_mod_self_right, Nat.mod_eq_of_lt hr]
  have ha : Fin.ofNat 32 i.val = i.castSucc := Fin.ext (Nat.mod_eq_of_lt (by omega))
  have hb : Fin.ofNat 32 (i.val + 1) = i.succ := Fin.ext (Nat.mod_eq_of_lt (by omega))
  have hlevel : 0 ≤ segmentLevel (points.get i.castSucc) (points.get i.succ) (r * 256 / step) := by
    have hbetween := segmentLevel_between (points.get i.castSucc) (points.get i.succ) (part_lt_256 hr)
    omega
  simp only [curveLevel, hd]
  rw [if_neg (by omega), if_neg (by omega), Int.toNat_natCast, hquot, hrest, ha, hb]
  exact Int.toNat_of_nonneg hlevel

theorem baseLevel_auto_fresh {t : Tables} {g : Blocks} {d : Fin 24} {seen : Option ChannelReport}
    (hmode : (t.shapes.get d).mode = .auto) (hfresh : (g.view seen (t.shapes.get d).indexChannel).state = .fresh) :
    baseLevel t g d seen =
      curveLevel (t.curves.get (t.shapes.get d).curve) (t.shapes.get d).base (t.shapes.get d).step
        (g.view seen (t.shapes.get d).indexChannel).value := by
  simp only [baseLevel, hmode, hfresh]

/-- Settles O57: the three ranges of `curveLevel`, with the index value inside a segment written as the segment's start and a rest below
the step. -/
theorem curveLevelsFollowTheSegments : Obligations.CurveLevelsFollowTheSegments := by
  unfold Obligations.CurveLevelsFollowTheSegments
  refine ⟨fun t g d seen => baseLevel_auto_fresh, fun points base v step hstep =>
    ⟨curveLevel_below points step, curveLevel_above points, fun i hfrom hto => ?_⟩⟩
  obtain ⟨r, hr⟩ : ∃ r : Nat, v - base - i.val * step = r := Int.eq_ofNat_of_zero_le (by omega)
  have hlt : r < step := by
    rw [Int.add_mul] at hto
    omega
  have hlevel := curveLevel_at points i hlt (v := v) (base := base) (by push_cast; omega)
  have hbetween := segmentLevel_between (points.get i.castSucc) (points.get i.succ) (part_lt_256 hlt)
  refine ⟨?_, ?_, ?_⟩
  · rw [hlevel, hr]
    rfl
  · omega
  · omega

end Sys2Proof.Machine
end

section
/-! SUPPORT. The table store of the Management Agent (chapter 10): the table an id names (R15, R173), and READ (R174). -/

namespace Sys2Proof.Machine

/-! ## Replies with data (R13) -/

/-- `answer_eq_replied` for an answer DONE or DONE-CLAMPED with a count and data. -/
theorem answerWith_eq_replied (r : Request) (res : Result) (count : Nat) (data : List Byte) (s : State) :
    answerWith r res count data s = replied s (replyTo r res.code count data) := rfl

/-! ## The table of an id (R15) -/

theorem tableOf_eq_none_iff {code : Nat} : tableOf code = none ↔ code = 0 ∨ 20 < code := by
  have hlength : allTables.length = 20 := rfl
  by_cases hzero : code = 0
  · simp [tableOf, hzero]
  · rw [tableOf, if_neg hzero, List.getElem?_eq_none_iff, hlength]
    omega

theorem tableOf_of_pos {code : Nat} (h : 1 ≤ code) : tableOf code = allTables[code - 1]? := by
  rw [tableOf, if_neg (by omega)]

/-! ## READ (R174) -/

theorem exec_read_of_taken {s : State} {r : Request} (ht : taken s r) (hc : r.code = 1) :
    exec .read s = .next (takeRead r s) :=
  onCode_of_taken ht hc

theorem takeRead_of_no_table {r : Request} (htable : tableOf r.table = none) (s : State) :
    takeRead r s = replied s (replyTo r 3 0 []) := by
  simp only [takeRead, htable, answer_eq_replied, Result.code]

/-- The range check is on the count asked for, not on the count returned. -/
theorem takeRead_beyond {r : Request} {k : TableId} (htable : tableOf r.table = some k)
    (hrange : k.entries < r.first + r.count) (s : State) : takeRead r s = replied s (replyTo r 4 0 []) := by
  simp only [takeRead, htable, if_pos hrange, answer_eq_replied, Result.code]

theorem takeRead_within {r : Request} {k : TableId} (htable : tableOf r.table = some k)
    (hrange : r.first + r.count ≤ k.entries) (s : State) :
    takeRead r s = replied s (replyTo r 0 (entriesReturned k r.count)
      ((List.range (entriesReturned k r.count)).flatMap fun i => entryBytes s.tables s.blocks (r.first + i) k)) := by
  simp only [takeRead, htable, if_neg (Nat.not_lt.mpr hrange), answerWith_eq_replied, Result.code]

/-- Settles O24, by the three branches of `takeRead`. -/
theorem readReturnsTheEntries : Obligations.ReadReturnsTheEntries := by
  unfold Obligations.ReadReturnsTheEntries
  intro s r ht hc
  rw [exec_read_of_taken ht hc]
  refine ⟨fun hid => ?_, fun k hk hid => ?_⟩
  · rw [takeRead_of_no_table (tableOf_eq_none_iff.mpr hid)]
  · have htable : tableOf r.table = some k := (tableOf_of_pos hid).trans hk
    refine ⟨fun hrange => ?_, fun hrange => ?_⟩
    · rw [takeRead_beyond htable hrange]
    · rw [takeRead_within htable hrange]
      rfl

end Sys2Proof.Machine
end
